-- ==== Sys2Proof/Word.lean ====
section
/-! DEFINITION. The widths the spec fixes (00_scope R8, 30_encoding R71): bytes, command words and their
fields. Nothing else stands here. -/

namespace Sys2Proof

/-- One byte: an opcode, an address byte or a data byte (R8). -/
abbrev Byte := BitVec 8

/-- A host command word (R71). -/
abbrev CmdWord := BitVec 64

/-- A command code, the `CMD` field (R71, R76). -/
abbrev CmdCode := BitVec 4

/-- A chip-select line id, the `CS` field (R71, R146). -/
abbrev LineId := BitVec 4

/-- A device byte address, the `ADDR` field (R8, R71). -/
abbrev Addr := BitVec 24

/-- A data length in bytes, the `LEN` field (R71, R83). -/
abbrev Len := BitVec 32

end Sys2Proof
end

