-- ==== Sys2Proof/Syntax.lean ====
section
/-! DEFINITION. The ten host commands, one constructor per row of spec/opcode_table.json (30_encoding R76, R78).
Every row has the one format HOSTCMD64 (R71), so every constructor carries the fields `CS`, `ADDR`, `LEN` of its
word. A command ignores the fields that R72 says it ignores. They are kept because acceptance latches the word's
fields whatever the command (40_transport_and_phases R120) (log 15). -/

namespace Sys2Proof

/-- A host command with the three operand fields of its word (R71). -/
inductive Instr where
  /-- reset-enable, `CMD` 1; reads `CS` only (R161). -/
  | rsten (cs : LineId) (addr : Addr) (len : Len)
  /-- reset, `CMD` 2; reads `CS` only (R162). -/
  | rst (cs : LineId) (addr : Addr) (len : Len)
  /-- read-id, `CMD` 3; reads `CS` only (R163). -/
  | rdid (cs : LineId) (addr : Addr) (len : Len)
  /-- toggle-burst-length, `CMD` 4; reads `CS` only (R165). -/
  | tglbl (cs : LineId) (addr : Addr) (len : Len)
  /-- fast-read (SPI), `CMD` 5 (R166). -/
  | frd (cs : LineId) (addr : Addr) (len : Len)
  /-- fast-write (SPI), `CMD` 6; its data is the request's `wdata` (R167). -/
  | fwr (cs : LineId) (addr : Addr) (len : Len)
  /-- enter-QSPI, `CMD` 7; ignores every field (R201). -/
  | qen (cs : LineId) (addr : Addr) (len : Len)
  /-- fast-read (QSPI), `CMD` 8 (R168). -/
  | qfrd (cs : LineId) (addr : Addr) (len : Len)
  /-- fast-write (QSPI), `CMD` 9; its data is the request's `wdata` (R169). -/
  | qfwr (cs : LineId) (addr : Addr) (len : Len)
  /-- exit-QSPI, `CMD` A; ignores every field (R204). -/
  | qex (cs : LineId) (addr : Addr) (len : Len)
deriving DecidableEq, Repr

end Sys2Proof
end

