-- ==== Sys2Proof/Decode.lean ====
section
/-! DEFINITION. The host command encoding (30_encoding R71, R76 to R78): the decoder, total on every word and
answering a reserved code by its number, and the encoder (R86). -/

namespace Sys2Proof

/-- `CMD`, word[3:0] (R71). -/
def fieldCmd (w : CmdWord) : CmdCode := w.extractLsb' 0 4

/-- `CS`, word[7:4] (R71). -/
def fieldCs (w : CmdWord) : LineId := w.extractLsb' 4 4

/-- `ADDR`, word[31:8] (R71). -/
def fieldAddr (w : CmdWord) : Addr := w.extractLsb' 8 24

/-- `LEN`, word[63:32] (R71). -/
def fieldLen (w : CmdWord) : Len := w.extractLsb' 32 32

/-- What a command word spells: a command or a reserved code (R77, R78). -/
inductive Decoded where
  | cmd (i : Instr)
  | reserved (code : CmdCode)
deriving DecidableEq, Repr

/-- The decoder of R78, total on every 64-bit word. -/
def decode (w : CmdWord) : Decoded :=
  match (fieldCmd w).toNat with
  | 0x1 => .cmd (.rsten (fieldCs w) (fieldAddr w) (fieldLen w))
  | 0x2 => .cmd (.rst (fieldCs w) (fieldAddr w) (fieldLen w))
  | 0x3 => .cmd (.rdid (fieldCs w) (fieldAddr w) (fieldLen w))
  | 0x4 => .cmd (.tglbl (fieldCs w) (fieldAddr w) (fieldLen w))
  | 0x5 => .cmd (.frd (fieldCs w) (fieldAddr w) (fieldLen w))
  | 0x6 => .cmd (.fwr (fieldCs w) (fieldAddr w) (fieldLen w))
  | 0x7 => .cmd (.qen (fieldCs w) (fieldAddr w) (fieldLen w))
  | 0x8 => .cmd (.qfrd (fieldCs w) (fieldAddr w) (fieldLen w))
  | 0x9 => .cmd (.qfwr (fieldCs w) (fieldAddr w) (fieldLen w))
  | 0xA => .cmd (.qex (fieldCs w) (fieldAddr w) (fieldLen w))
  | _ => .reserved (fieldCmd w)

/-- The instruction the decoder reads from the low `nbits` bits of `w`, the bits above them 0. The command word is
one 64-bit datum on the host interface (R70, R71), so its table bits are its own bits. -/
def decodeTableWord (nbits w : Nat) : Option Instr :=
  match decode (BitVec.ofNat 64 (w % 2 ^ nbits)) with
  | .cmd i => some i
  | .reserved _ => none

/-- The command code of a command (R76). -/
def Instr.code : Instr → CmdCode
  | .rsten _ _ _ => 0x1
  | .rst _ _ _ => 0x2
  | .rdid _ _ _ => 0x3
  | .tglbl _ _ _ => 0x4
  | .frd _ _ _ => 0x5
  | .fwr _ _ _ => 0x6
  | .qen _ _ _ => 0x7
  | .qfrd _ _ _ => 0x8
  | .qfwr _ _ _ => 0x9
  | .qex _ _ _ => 0xA

/-- The `CS` field of a command's word (R71). -/
def Instr.line : Instr → LineId
  | .rsten cs _ _ => cs
  | .rst cs _ _ => cs
  | .rdid cs _ _ => cs
  | .tglbl cs _ _ => cs
  | .frd cs _ _ => cs
  | .fwr cs _ _ => cs
  | .qen cs _ _ => cs
  | .qfrd cs _ _ => cs
  | .qfwr cs _ _ => cs
  | .qex cs _ _ => cs

/-- The `ADDR` field of a command's word (R71). -/
def Instr.addr : Instr → Addr
  | .rsten _ a _ => a
  | .rst _ a _ => a
  | .rdid _ a _ => a
  | .tglbl _ a _ => a
  | .frd _ a _ => a
  | .fwr _ a _ => a
  | .qen _ a _ => a
  | .qfrd _ a _ => a
  | .qfwr _ a _ => a
  | .qex _ a _ => a

/-- The `LEN` field of a command's word (R71). -/
def Instr.len : Instr → Len
  | .rsten _ _ l => l
  | .rst _ _ l => l
  | .rdid _ _ l => l
  | .tglbl _ _ l => l
  | .frd _ _ l => l
  | .fwr _ _ l => l
  | .qen _ _ l => l
  | .qfrd _ _ l => l
  | .qfwr _ _ l => l
  | .qex _ _ l => l

/-- The word `LEN << 32 | ADDR << 8 | CS << 4 | CMD` (R86). -/
def packWord (cmd : CmdCode) (cs : LineId) (addr : Addr) (len : Len) : CmdWord :=
  len ++ addr ++ cs ++ cmd

/-- The command word of a command (R71, R86). -/
def encode (i : Instr) : CmdWord := packWord i.code i.line i.addr i.len

end Sys2Proof
end

