-- ==== Sys2Proof/Config.lean ====
section
/-! DEFINITION. What is fixed when the block is built (00_scope R7), the constant `FILLER`, and the values the
spec leaves free: the transport's draws (40_transport_and_phases R102, 93 I2 to I4), the timer's reports (R110,
93 I23) and the OPEN parameters that no rule reads (R7). -/

namespace Sys2Proof

/-- The transport variant, parameter `BACKEND` (R7, R100). -/
inductive Backend where
  | softwareBitBang
  | hardwareAssisted
deriving DecidableEq, Repr

/-- The build-time parameters that some rule reads (R7). Each is fixed for the life of the block (log 2). -/
structure Params where
  /-- `N_CS`, the number of chip-select lines. -/
  nCs : Nat
  /-- `N_HOST`, the number of host agents. -/
  nHost : Nat
  /-- `BACKEND`. -/
  backend : Backend
  /-- `T_RESET_SETTLE_MIN`, in microseconds (log 26). -/
  resetSettleMinUs : Nat
  /-- `QSPI_WRITE_OPCODE`. -/
  qspiWriteOpcode : Byte
  /-- `EXIT_SEQUENCE`, sent as nibble pairs. -/
  exitSequence : List Byte
  /-- `READ_ID_PAD_BYTES`. -/
  readIdPadBytes : Nat
  /-- `MAX_LEN`. -/
  maxLen : Len
deriving DecidableEq, Repr

/-- Every parameter lies in the range R7 gives it. -/
def Params.wf (p : Params) : Bool :=
  decide (1 ≤ p.nCs) && decide (p.nCs ≤ 16) && decide (1 ≤ p.nHost)
    && (p.qspiWriteOpcode == 0x38 || p.qspiWriteOpcode == 0x02)
    && !p.exitSequence.isEmpty
    && (p.readIdPadBytes == 0 || p.readIdPadBytes == 3)

/-- The defaults of R7 where it gives one (10 ms, `0x38`, `[0xF5]`, 0, 2^32-1), and for `N_CS`, `N_HOST` and
`BACKEND` those of 95_test_vectors "Conventions" (DESIGN CHOICE, log 2; unsafe only for a claim that rests on them). -/
def Params.defaults : Params where
  nCs := 2
  nHost := 1
  backend := .softwareBitBang
  resetSettleMinUs := 10000
  qspiWriteOpcode := 0x38
  exitSequence := [0xF5]
  readIdPadBytes := 0
  maxLen := 0xFFFFFFFF

/-- `FILLER`, the byte shifted out when only the byte shifted in matters (R7, R115). -/
def Config.filler : Byte := 0x00

/-- How a transport primitive returns (R13). -/
inductive Answer where
  | ok
  | timeout
  | short
deriving DecidableEq, Repr, Inhabited

/-- One answer of the transport: how the primitive returned and, for a read, the value it returned (R102). A byte
primitive's value is the low byte of `value`. -/
structure Draw where
  answer : Answer
  value : BitVec 32
deriving DecidableEq, Repr, Inhabited

/-- The transport's `n`-th free answer: any value (R102, 93 I2, I3, I4) (log 5). -/
opaque Config.freeDraw : Nat → Draw

/-- The timer's `n`-th free report of how long the settle wait has lasted, in microseconds (R110, 93 I23) (log 5). -/
opaque Config.freeWaitUs : Nat → Nat

/-- `T_XFER_TIMEOUT`, OPEN: no rule reads it at micro-op level, where a timeout is a draw (R7, R246) (log 18). That it is
a whole number of microseconds is a DESIGN CHOICE (log 18). -/
opaque Config.xferTimeoutUs : Nat

/-- `CLK_RATIO`, OPEN: no rule depends on it (R7, 93 I19) (log 18). The spec does not define what kind of quantity it is
(91 N20). That it is a natural number is a DESIGN CHOICE (log 18): a fractional ratio is not expressible. It is not
assumed to be a clock divider, nor a data rate. -/
opaque Config.clkRatio : Nat

/-- `SPI_CLOCK_MODE`, clock polarity and phase, OPEN: no rule at micro-op level depends on it (R7, 93 I15) (log 18). That
the two are one bit each, in one 2-bit value, is a DESIGN CHOICE (log 18). -/
opaque Config.spiClockMode : BitVec 2

end Sys2Proof
end

