-- ==== Sys2Proof/Machine/State.lean ====
section
/-! DEFINITION. The state of the block (10_state R20), the agents' part of a run held as plain data, the reasons a
step can stop, and the state after reset (70_reset_and_hazards R260). -/

namespace Sys2Proof.Machine

/-- WireMode, also the pin configuration and the mode of a device: bit width and direction discipline (R21, R22). -/
inductive WireMode where
  | spi
  | qspi
deriving DecidableEq, Repr

/-- The status codes of 60_exceptions R230. Codes 6 and 7 are never produced and have no constructor. -/
inductive Status where
  | ok
  | busBusy
  | invalidModeTransition
  | transportTimeout
  | shortTransfer
  | badArgument
deriving DecidableEq, Repr

/-- The micro-ops of 40_transport_and_phases R101. -/
inductive MicroOp where
  /-- `SEL(i)`: the framer asserts line `i`. -/
  | sel (i : LineId)
  /-- `UNSEL(i)`: the framer releases line `i`. -/
  | unsel (i : LineId)
  /-- `TX8(b)`: `XB(b)`, the byte shifted in is discarded. -/
  | tx8 (b : Byte)
  /-- `RX8`: `XB(FILLER)`, the byte shifted in goes to `rbuf`. -/
  | rx8
  /-- `RX32`: `XW(0)`, the four bytes shifted in go to `rbuf`. -/
  | rx32
  /-- `QTX(b)`: `WNP(b)`. -/
  | qtx (b : Byte)
  /-- `QRX`: `RNP()`, the byte goes to `rbuf`. -/
  | qrx
  /-- `QSKIP`: `RNP()`, the byte is discarded. -/
  | qskip
  /-- `DRAIN`: wait until all issued output is on the wire. -/
  | drain
  /-- `PINS(m)`: `SETPINS(m)`. -/
  | pins (m : WireMode)
  /-- `MODE(m)`: write `wire_mode`. -/
  | mode (m : WireMode)
  /-- `SETTLE`: wait at least `T_RESET_SETTLE_MIN`. -/
  | settle
deriving DecidableEq, Repr

/-- A transport primitive that moves bits, with what it sends (00_scope R13). -/
inductive Primitive where
  | xb (b : Byte)
  | xw (w : BitVec 32)
  | wnp (b : Byte)
  | rnp
deriving DecidableEq, Repr

/-- One event of the wire trace (92 D37). A primitive is one event with its values (R103 to R106). -/
inductive WireEvent where
  /-- `cs_n[i]` falls. -/
  | csFall (i : LineId)
  /-- `cs_n[i]` rises. -/
  | csRise (i : LineId)
  /-- `XB`: the byte shifted out and the byte shifted in. -/
  | xb (out inp : Byte)
  /-- `XW`: the word shifted out and the word shifted in. -/
  | xw (out inp : BitVec 32)
  /-- `WNP`: the byte driven as a nibble pair. -/
  | wnp (out : Byte)
  /-- `RNP`: the byte sampled as a nibble pair. -/
  | rnp (inp : Byte)
  /-- `SETPINS(m)`. -/
  | setPins (m : WireMode)
  /-- A primitive that returned `Timeout` or `Short`: its effect on the wire is partial or unknown (R237) (log 13). -/
  | broken (p : Primitive)
deriving DecidableEq, Repr

/-- The response record (30_encoding R73). -/
structure Response where
  status : Status
  rdata : List Byte
  id : Option (BitVec 64)
  vendorKgd : Option (BitVec 16)
  eid : Option (BitVec 48)
deriving DecidableEq, Repr

/-- A response handed to a host, `respond(h, r)` (R12). -/
structure Delivery where
  host : Nat
  response : Response
deriving DecidableEq, Repr

/-- A host's read of the STATUS view and the value it saw (R31). -/
structure StatusRead where
  host : Nat
  value : BitVec 16
deriving DecidableEq, Repr

/-- What the host interface presents beside the command word: who submits, and the write data (30_encoding R70). -/
structure Port where
  host : Nat
  wdata : List Byte
deriving DecidableEq, Repr

/-- What an agent outside the sequencer does, or answers, in one step (R10, R127) (log 4). -/
inductive Event where
  /-- Host `host` submits a request (R120 to R122). -/
  | submit (host : Nat) (word : CmdWord) (wdata : List Byte)
  /-- Host `host` reads the STATUS view (R31). -/
  | readStatus (host : Nat)
  /-- The sequencer takes its step, and the transport answers its primitive with `d` (R102, R123). -/
  | transport (d : Draw)
  /-- The timer reports that `waitedUs` microseconds have passed since `SETTLE` began (R110). -/
  | timer (waitedUs : Nat)
deriving DecidableEq, Repr

/-- The whole machine. `wireMode` to `lastStatus` are the record of R20 in its order. `inFlight` is the hidden state
of R34(a). The other fields are the model's own. -/
structure State where
  /-- The build-time parameters, written by no step (R7) (log 2). -/
  params : Params
  /-- `wire_mode` (R21). -/
  wireMode : WireMode
  /-- `pin_cfg` (R22). -/
  pinCfg : WireMode
  /-- `sel_active` (R23). -/
  selActive : Bool
  /-- `sel_id` (R24). -/
  selId : LineId
  /-- `cs_n[0 .. N_CS-1]`, `true` is high, deasserted (R25). -/
  csN : List Bool
  /-- `busy` (R26). -/
  busy : Bool
  /-- `prog` (R27). -/
  prog : List MicroOp
  /-- `upc` (R27). -/
  upc : Nat
  /-- `cur_host` (R28). -/
  curHost : Nat
  /-- `cur_cmd` (R28). -/
  curCmd : CmdCode
  /-- `cur_cs` (R28). -/
  curCs : LineId
  /-- `cur_addr` (R28). -/
  curAddr : Addr
  /-- `cur_len` (R28). -/
  curLen : Len
  /-- `wbuf` (R28). -/
  wbuf : List Byte
  /-- `rbuf` (R29). -/
  rbuf : List Byte
  /-- `last_status` (R30). -/
  lastStatus : Status
  /-- Output bytes issued and not yet known to be on the wire: the transport's queue (R34a, R108) (log 12). -/
  inFlight : List Byte
  /-- The host interface's submitting host and write data (R70) (log 20). -/
  port : Port
  /-- The environment's events still to come, the next one first (log 4). -/
  inputs : List Event
  /-- How many free draws have been used (log 5). -/
  drawCount : Nat
  /-- The wire trace so far, oldest first (92 D37). -/
  wire : List WireEvent
  /-- The responses delivered so far, oldest first (92 D37). -/
  responses : List Delivery
  /-- The STATUS reads so far, oldest first (92 D37). -/
  statusReads : List StatusRead
deriving DecidableEq, Repr

/-- Why a step stops with a fault. Neither is a behaviour of the hardware. -/
inductive Fault where
  /-- Raised by the sequencer when the micro-op that is due finds its precondition of R101 false, as R111 asks. Safe:
  the model stops, and no expansion of the spec reaches it. -/
  | internalPrecondition
  /-- Raised by the sequencer when `upc` lies beyond `|prog|`, which R27 says never happens. Safe: the model stops
  (log 10). -/
  | programOverrun
deriving DecidableEq, Repr

/-- Why a step refuses. -/
inductive Refusal where
  /-- The instruction has no meaning in the model. Raised by no arm: every command is modelled. Safe. -/
  | notModelled (mnemonic : String)
deriving DecidableEq, Repr

/-- The block right after reset, built with parameters `p` (R20, R260). The latches' zeros are the model's
(DESIGN CHOICE, log 3; unsafe). -/
def State.resetWith (p : Params) : State where
  params := p
  wireMode := .spi
  pinCfg := .spi
  selActive := false
  selId := 0
  csN := List.replicate p.nCs true
  busy := false
  prog := []
  upc := 0
  curHost := 0
  curCmd := 0
  curCs := 0
  curAddr := 0
  curLen := 0
  wbuf := []
  rbuf := []
  lastStatus := .ok
  inFlight := []
  port := { host := 0, wdata := [] }
  inputs := []
  drawCount := 0
  wire := []
  responses := []
  statusReads := []

/-- The block right after reset, with the default parameters (R260) (log 2). -/
def State.reset : State := State.resetWith Params.defaults

end Sys2Proof.Machine
end

