-- ==== Sys2Proof/Machine/Flags.lean ====
section
/-! DEFINITION. The numbers of the status codes and of the modes (10_state R20, 60_exceptions R230), the STATUS view
(R31), and the ordered checks of acceptance that decide a status (40_transport_and_phases R121, R122, 60 R240). The
block has no other flags (R30). -/

namespace Sys2Proof.Machine

/-- The 3-bit code of a status (R230). -/
def Status.code : Status → BitVec 3
  | .ok => 0
  | .busBusy => 1
  | .invalidModeTransition => 2
  | .transportTimeout => 3
  | .shortTransfer => 4
  | .badArgument => 5

/-- The bit of a wire mode: SPI 0, QSPI 1 (R20). -/
def WireMode.bit : WireMode → Bool
  | .spi => false
  | .qspi => true

/-- The STATUS view: MODE bit 0, PINS bit 1, SEL bit 2, BUSY bit 3, SEL_ID bits 7:4, LAST bits 10:8, bits 15:11
read 0 (R31). -/
def State.statusView (s : State) : BitVec 16 :=
  (0 : BitVec 5) ++ s.lastStatus.code ++ s.selId ++ BitVec.ofBool s.busy ++ BitVec.ofBool s.selActive
    ++ BitVec.ofBool s.pinCfg.bit ++ BitVec.ofBool s.wireMode.bit

/-- What acceptance must know of a command (30_encoding R72, R80). -/
structure CmdInfo where
  /-- its `CMD` code (R76) -/
  code : CmdCode
  /-- it reads `CS` (R72) -/
  readsCs : Bool
  /-- it reads `ADDR` and `LEN` (R72) -/
  isData : Bool
  /-- it reads `wdata` (R72) -/
  isWrite : Bool
  /-- it is QEN or QEX (R121) -/
  isTransition : Bool
  /-- its required mode (R80, R172) -/
  mode : WireMode
deriving DecidableEq, Repr

/-- The answer to a submission while `busy` = 1 (R121; check 0 of R240). -/
def busyStatus (isTransition : Bool) : Status :=
  if isTransition then .invalidModeTransition else .busBusy

/-- Check 2 of R122: a command that reads `CS` names a line `>= N_CS`. -/
def badLine (c : CmdInfo) (cs : LineId) (s : State) : Bool :=
  c.readsCs && decide (s.params.nCs ≤ cs.toNat)

/-- Check 3 of R122: a data command's `LEN` exceeds `MAX_LEN`. -/
def badLength (c : CmdInfo) (len : Len) (s : State) : Bool :=
  c.isData && decide (s.params.maxLen.toNat < len.toNat)

/-- Check 4 of R122: a write's `|wdata|` differs from `LEN`. -/
def badData (c : CmdInfo) (len : Len) (s : State) : Bool :=
  c.isWrite && s.port.wdata.length != len.toNat

/-- Checks 2 to 5 of R122 in their order: the status of the first that fails, `none` when all pass. -/
def idleCheck (c : CmdInfo) (cs : LineId) (len : Len) (s : State) : Option Status :=
  if badLine c cs s then some .badArgument
  else if badLength c len s then some .badArgument
  else if badData c len s then some .badArgument
  else if c.mode ≠ s.wireMode then some .invalidModeTransition
  else none

end Sys2Proof.Machine
end

