-- ==== Sys2Proof/Machine/Operands.lean ====
section
/-! DEFINITION. The phase multiplexer and the framing that turn a command into micro-ops (40_transport_and_phases
R112 to R119), the frames of the mode controller (42 R170, R171), and the byte splitting they use (30 R82, 20 R56). -/

namespace Sys2Proof.Machine

/-- The address phase's bytes `a2, a1, a0`, most significant first (R53, R82). -/
def addrBytes (a : Addr) : List Byte :=
  [a.extractLsb' 16 8, a.extractLsb' 8 8, a.extractLsb' 0 8]

/-- A 32-bit word as four bytes, most significant first (R56, R101, R104). -/
def wordBytes (w : BitVec 32) : List Byte :=
  [w.extractLsb' 24 8, w.extractLsb' 16 8, w.extractLsb' 8 8, w.extractLsb' 0 8]

/-- The phases of a transaction (R112, R113). -/
inductive Phase where
  | opc (b : Byte)
  | adr (a : Addr)
  | pad (k : Nat)
  | dummy (clocks : Nat)
  | rd (len : Nat)
  | rdw
  | wr (d : List Byte)
deriving DecidableEq, Repr

/-- `mux(phase, m)` of R113. `PAD` and `RDW` are phases of RDID alone, which runs under SPI alone; under QSPI they
contribute nothing (log 22). -/
def mux : Phase → WireMode → List MicroOp
  | .opc b, .spi => [.tx8 b]
  | .opc b, .qspi => [.qtx b]
  | .adr a, .spi => (addrBytes a).map .tx8
  | .adr a, .qspi => (addrBytes a).map .qtx
  | .pad k, .spi => List.replicate k (.tx8 Config.filler)
  | .pad _, .qspi => []
  | .dummy n, .spi => List.replicate (n / 8) (.tx8 Config.filler)
  | .dummy n, .qspi => List.replicate (n / 2) .qskip
  | .rd l, .spi => List.replicate l .rx8
  | .rd l, .qspi => List.replicate l .qrx
  | .rdw, .spi => [.rx32, .rx32]
  | .rdw, .qspi => []
  | .wr d, .spi => d.map .tx8
  | .wr d, .qspi => d.map .qtx

/-- `body(cmd, m)`: the phases in their order (R79, R113). -/
def body (phases : List Phase) (m : WireMode) : List MicroOp :=
  phases.flatMap fun p => mux p m

/-- `frame(i, B)` of R118: select, body, drain, release. -/
def frame (i : LineId) (b : List MicroOp) : List MicroOp :=
  [.sel i] ++ b ++ [.drain, .unsel i]

/-- The phases of RSTEN (R112). -/
def phasesRsten : List Phase := [.opc 0x66]

/-- The phases of RST (R112). -/
def phasesRst : List Phase := [.opc 0x99]

/-- The phases of RDID (R112). -/
def phasesRdid (p : Params) : List Phase := [.opc 0x9F, .pad p.readIdPadBytes, .rdw]

/-- The phases of TGLBL (R112). -/
def phasesTglbl : List Phase := [.opc 0xC0]

/-- The phases of FRD (R112). -/
def phasesFrd (addr : Addr) (len : Len) : List Phase := [.opc 0x0B, .adr addr, .dummy 8, .rd len.toNat]

/-- The phases of FWR (R112). -/
def phasesFwr (addr : Addr) (data : List Byte) : List Phase := [.opc 0x02, .adr addr, .wr data]

/-- The phases of the enable-qspi transaction inside QEN (R112, R170). -/
def phasesEnableQspi : List Phase := [.opc 0x35]

/-- The phases of QFRD (R112). -/
def phasesQfrd (addr : Addr) (len : Len) : List Phase := [.opc 0xEB, .adr addr, .dummy 6, .rd len.toNat]

/-- The phases of QFWR (R112). -/
def phasesQfwr (p : Params) (addr : Addr) (data : List Byte) : List Phase :=
  [.opc p.qspiWriteOpcode, .adr addr, .wr data]

/-- The chip-select lines `0 .. N_CS-1` in ascending order (R202, R205). -/
def allLines (p : Params) : List LineId := (List.range p.nCs).map (BitVec.ofNat 4)

/-- `ENQ(i)`: the enable-qspi frame on line `i` (R170). -/
def enableFrame (i : LineId) : List MicroOp := frame i (body phasesEnableQspi .spi)

/-- `DISQ(i)`: the disable-qspi frame on line `i`, the exit pattern as nibble pairs (R171). -/
def disableFrame (p : Params) (i : LineId) : List MicroOp := frame i (p.exitSequence.map .qtx)

end Sys2Proof.Machine
end

