-- ==== Sys2Proof/Machine/Ops.lean ====
section
/-! DEFINITION. The named operations on the state: responses, the chip-select framer (41_chip_select), what a transport
primitive does to the state (40_transport_and_phases R101 to R109), the error recovery that plays the part of trap
entry (60_exceptions R236; there is no return from it, R242), completion (R125) and acceptance (R120 to R122). -/

namespace Sys2Proof.Machine

/-- A response that carries a status and bytes and no id fields (R73). -/
def plainResponse (st : Status) (rdata : List Byte) : Response where
  status := st
  rdata := rdata
  id := none
  vendorKgd := none
  eid := none

/-- `respond(h, r)` (R12). -/
def State.respond (s : State) (h : Nat) (r : Response) : State :=
  { s with responses := s.responses ++ [{ host := h, response := r }] }

/-- `upc <- upc + 1` (R124). -/
def State.advance (s : State) : State := { s with upc := s.upc + 1 }

/-- The framer drives line `i` low and records the selection (R141). -/
def State.select (s : State) (i : LineId) : State :=
  { s with
    csN := s.csN.set i.toNat false
    selActive := true
    selId := i
    wire := s.wire ++ [.csFall i] }

/-- `SEL(i)`, the framer's own operation: `none` is its `raise BusBusy` branch, which no expansion reaches (R141,
R145a) (log 9). -/
def framerSel (i : LineId) (s : State) : Option State :=
  if s.selActive then none else some (s.select i)

/-- `UNSEL(i)`: line `i` rises; `sel_id` keeps its value (R142, R24). -/
def State.release (s : State) (i : LineId) : State :=
  { s with
    csN := s.csN.set i.toNat true
    selActive := false
    wire := s.wire ++ [.csRise i] }

/-- The wire event of a primitive that returned `Ok`, `v` the value the lines carried in (R103 to R106). -/
def Primitive.event (p : Primitive) (v : BitVec 32) : WireEvent :=
  match p with
  | .xb b => .xb b (v.setWidth 8)
  | .xw w => .xw w v
  | .wnp b => .wnp b
  | .rnp => .rnp (v.setWidth 8)

/-- The bytes a primitive sends (R103 to R106). -/
def Primitive.output (p : Primitive) : List Byte :=
  match p with
  | .xb b => [b]
  | .xw w => wordBytes w
  | .wnp b => [b]
  | .rnp => []

/-- What the transport's queue holds after the primitive `p` has returned `Ok`: on HardwareAssisted its output may
still be in flight, on SoftwareBitBang it is on the wire (R34a, R108) (log 12). -/
def queueAfter (b : Backend) (q : List Byte) (p : Primitive) : List Byte :=
  match b with
  | .softwareBitBang => q
  | .hardwareAssisted => q ++ p.output

/-- The primitive `p` has returned `Ok` with value `v`. -/
def State.transferred (s : State) (p : Primitive) (v : BitVec 32) : State :=
  { s with
    wire := s.wire ++ [p.event v]
    inFlight := queueAfter s.params.backend s.inFlight p }

/-- `rbuf <- rbuf ++ bs` (R29, R101). -/
def State.received (s : State) (bs : List Byte) : State := { s with rbuf := s.rbuf ++ bs }

/-- `DRAIN` has returned `Ok`: all output is on the wire (R108). -/
def State.drained (s : State) : State := { s with inFlight := [] }

/-- `SETPINS(m)` then `pin_cfg <- m` (R107). -/
def State.setPins (s : State) (m : WireMode) : State :=
  { s with pinCfg := m, wire := s.wire ++ [.setPins m] }

/-- `wire_mode <- m` (R109). -/
def State.setMode (s : State) (m : WireMode) : State := { s with wireMode := m }

/-- The primitive `p` has failed: its wire effect is partial or unknown (R237, R238) (log 13). -/
def State.brokenOff (s : State) (p : Primitive) : State := { s with wire := s.wire ++ [.broken p] }

/-- The wire events of a recovery: the held line is forced high, then the pins are set to SPI (R236). -/
def recoveryEvents (selActive : Bool) (selId : LineId) : List WireEvent :=
  (if selActive then [.csRise selId] else []) ++ [.setPins .spi]

/-- The lines after a recovery: the held one is forced high, with no drain (R236, R143b). -/
def linesAfterRecovery (selActive : Bool) (selId : LineId) (lines : List Bool) : List Bool :=
  if selActive then lines.set selId.toNat true else lines

/-- Error recovery with status `e`, the block's trap entry (R236). Output still queued is dropped (93 I8) (log 11). -/
def State.recover (s : State) (e : Status) : State :=
  { s with
    csN := linesAfterRecovery s.selActive s.selId s.csN
    selActive := false
    pinCfg := .spi
    wireMode := .spi
    wire := s.wire ++ recoveryEvents s.selActive s.selId
    responses := s.responses ++ [{ host := s.curHost, response := plainResponse e s.rbuf }]
    lastStatus := e
    busy := false
    prog := []
    upc := 0
    rbuf := []
    wbuf := []
    inFlight := [] }

/-- The 64-bit identifier from the bytes received, the first byte highest (R56, R125) (log 23). -/
def idOfBytes (bs : List Byte) : BitVec 64 :=
  bs.foldl (fun acc b => (acc <<< 8) ||| b.setWidth 64) 0

/-- `vendor_kgd = id[63:48]` (R164). -/
def vendorKgdOf (id : BitVec 64) : BitVec 16 := id.extractLsb' 48 16

/-- `eid = id[47:0]` (R164). -/
def eidOf (id : BitVec 64) : BitVec 48 := id.extractLsb' 0 48

/-- The response of a completed command: the bytes read, and for RDID the id fields (R125). -/
def completionResponse (cmd : CmdCode) (rbuf : List Byte) : Response :=
  if cmd = 0x3 then
    { status := .ok
      rdata := rbuf
      id := some (idOfBytes rbuf)
      vendorKgd := some (vendorKgdOf (idOfBytes rbuf))
      eid := some (eidOf (idOfBytes rbuf)) }
  else plainResponse .ok rbuf

/-- Completion (R125). -/
def State.complete (s : State) : State :=
  { s with
    responses := s.responses ++ [{ host := s.curHost, response := completionResponse s.curCmd s.rbuf }]
    lastStatus := .ok
    busy := false
    prog := []
    upc := 0
    rbuf := []
    wbuf := [] }

/-- The state from which the run goes on that a block reset starts, whatever the block was doing: no drain, no response
(70_reset_and_hazards R260, R261). It is never a step inside a run (log 25). -/
def State.blockReset (s : State) : State := State.resetWith s.params

/-- Rejection while busy: a response and nothing else (R121). -/
def State.rejectBusy (s : State) (st : Status) : State := s.respond s.port.host (plainResponse st [])

/-- Rejection while idle: a response and `last_status` (R122). -/
def State.rejectIdle (s : State) (st : Status) : State :=
  { s.respond s.port.host (plainResponse st []) with lastStatus := st }

/-- Acceptance: the latches take the word's fields, `prog` the expansion (R120). -/
def State.accept (s : State) (c : CmdInfo) (cs : LineId) (addr : Addr) (len : Len) (prog : List MicroOp) : State :=
  { s with
    busy := true
    curHost := s.port.host
    curCmd := c.code
    curCs := cs
    curAddr := addr
    curLen := len
    wbuf := if c.isWrite then s.port.wdata else []
    rbuf := []
    prog := prog
    upc := 0 }

/-- A submission of a command: rejected while busy (R121), rejected by the first check that fails while idle (R122,
R240), else accepted with the expansion `prog` (R120). -/
def submit (c : CmdInfo) (cs : LineId) (addr : Addr) (len : Len) (prog : List MicroOp) (s : State) :
    Host.Outcome State Fault Refusal :=
  if s.busy then .next (s.rejectBusy (busyStatus c.isTransition))
  else
    match idleCheck c cs len s with
    | some st => .next (s.rejectIdle st)
    | none => .next (s.accept c cs addr len prog)

/-- A submission of a reserved code: `BusBusy` while busy, `BadArgument` while idle (R77, R121, check 1 of R122). -/
def submitReserved (s : State) : State :=
  if s.busy then s.rejectBusy .busBusy else s.rejectIdle .badArgument

end Sys2Proof.Machine
end

