-- ==== Sys2Proof/Machine/DataTransfer.lean ====
section
/-! DEFINITION. The data transfer commands FRD, FWR, QFRD and QFWR (42_command_protocol R166 to R169). -/

namespace Sys2Proof.Machine

/-- What acceptance must know of a data command: it reads `CS`, `ADDR` and `LEN`, a write also reads `wdata`, and it
requires the mode its name gives (R72, R172). -/
def dataInfo (code : CmdCode) (isWrite : Bool) (mode : WireMode) : CmdInfo where
  code := code
  readsCs := true
  isData := true
  isWrite := isWrite
  isTransition := false
  mode := mode

/-- FRD, fast-read (SPI) (R166). -/
def execFrd (cs : LineId) (addr : Addr) (len : Len) (s : State) : Host.Outcome State Fault Refusal :=
  submit (dataInfo 0x5 false .spi) cs addr len (frame cs (body (phasesFrd addr len) .spi)) s

/-- FWR, fast-write (SPI) (R167). -/
def execFwr (cs : LineId) (addr : Addr) (len : Len) (s : State) : Host.Outcome State Fault Refusal :=
  submit (dataInfo 0x6 true .spi) cs addr len (frame cs (body (phasesFwr addr s.port.wdata) .spi)) s

/-- QFRD, fast-read (QSPI) (R168). -/
def execQfrd (cs : LineId) (addr : Addr) (len : Len) (s : State) : Host.Outcome State Fault Refusal :=
  submit (dataInfo 0x8 false .qspi) cs addr len (frame cs (body (phasesQfrd addr len) .qspi)) s

/-- QFWR, fast-write (QSPI) (R169). -/
def execQfwr (cs : LineId) (addr : Addr) (len : Len) (s : State) : Host.Outcome State Fault Refusal :=
  submit (dataInfo 0x9 true .qspi) cs addr len (frame cs (body (phasesQfwr s.params addr s.port.wdata) .qspi)) s

end Sys2Proof.Machine
end

