-- ==== Sys2Proof/Machine/DeviceControl.lean ====
section
/-! DEFINITION. The device control commands RSTEN, RST, RDID and TGLBL (42_command_protocol R161 to R165). -/

namespace Sys2Proof.Machine

/-- What acceptance must know of a device control command with code `code`: it reads `CS` alone and requires SPI
(R72, R172). -/
def controlInfo (code : CmdCode) : CmdInfo where
  code := code
  readsCs := true
  isData := false
  isWrite := false
  isTransition := false
  mode := .spi

/-- RSTEN, reset-enable (R161). -/
def execRsten (cs : LineId) (addr : Addr) (len : Len) (s : State) : Host.Outcome State Fault Refusal :=
  submit (controlInfo 0x1) cs addr len (frame cs (body phasesRsten .spi)) s

/-- RST, reset, with its settle wait (R119, R162). -/
def execRst (cs : LineId) (addr : Addr) (len : Len) (s : State) : Host.Outcome State Fault Refusal :=
  submit (controlInfo 0x2) cs addr len (frame cs (body phasesRst .spi) ++ [.settle]) s

/-- RDID, read-id (R163). -/
def execRdid (cs : LineId) (addr : Addr) (len : Len) (s : State) : Host.Outcome State Fault Refusal :=
  submit (controlInfo 0x3) cs addr len (frame cs (body (phasesRdid s.params) .spi)) s

/-- TGLBL, toggle-burst-length (R165). -/
def execTglbl (cs : LineId) (addr : Addr) (len : Len) (s : State) : Host.Outcome State Fault Refusal :=
  submit (controlInfo 0x4) cs addr len (frame cs (body phasesTglbl .spi)) s

end Sys2Proof.Machine
end

