-- ==== Sys2Proof/Machine/ModeControl.lean ====
section
/-! DEFINITION. The mode transitions QEN and QEX (43_mode_controller R201 to R206). -/

namespace Sys2Proof.Machine

/-- What acceptance must know of a mode transition that requires `mode`: it reads no field, and while busy it gets
`InvalidModeTransition` (R72, R121, R172). -/
def transitionInfo (code : CmdCode) (mode : WireMode) : CmdInfo where
  code := code
  readsCs := false
  isData := false
  isWrite := false
  isTransition := true
  mode := mode

/-- The expansion of QEN: an enable-qspi frame on every line in ascending order, then the pins, then the mode (R202). -/
def enterProgram (p : Params) : List MicroOp :=
  (allLines p).flatMap enableFrame ++ [.pins .qspi, .mode .qspi]

/-- The expansion of QEX: an exit frame on every line in ascending order, then the pins, then the mode (R205). -/
def exitProgram (p : Params) : List MicroOp :=
  (allLines p).flatMap (disableFrame p) ++ [.pins .spi, .mode .spi]

/-- QEN, enter-QSPI (R201, R202). -/
def execQen (cs : LineId) (addr : Addr) (len : Len) (s : State) : Host.Outcome State Fault Refusal :=
  submit (transitionInfo 0x7 .spi) cs addr len (enterProgram s.params) s

/-- QEX, exit-QSPI (R204, R205). -/
def execQex (cs : LineId) (addr : Addr) (len : Len) (s : State) : Host.Outcome State Fault Refusal :=
  submit (transitionInfo 0xA .qspi) cs addr len (exitProgram s.params) s

end Sys2Proof.Machine
end

