-- ==== Sys2Proof/Machine/Dispatch.lean ====
section
/-! DEFINITION. The dispatch of a decoded command to its meaning: one arm per constructor. A command's meaning is its
submission (40_transport_and_phases R120 to R122); its expansion then runs one micro-op a step (R123) (log 1). -/

namespace Sys2Proof.Machine

def exec (i : Instr) (s : State) : Host.Outcome State Fault Refusal :=
  match i with
  -- device control
  | .rsten cs addr len => Sys2Proof.Machine.execRsten cs addr len s
  | .rst cs addr len => Sys2Proof.Machine.execRst cs addr len s
  | .rdid cs addr len => Sys2Proof.Machine.execRdid cs addr len s
  | .tglbl cs addr len => Sys2Proof.Machine.execTglbl cs addr len s
  -- data transfer, SPI
  | .frd cs addr len => Sys2Proof.Machine.execFrd cs addr len s
  | .fwr cs addr len => Sys2Proof.Machine.execFwr cs addr len s
  -- mode transitions and data transfer, QSPI
  | .qen cs addr len => Sys2Proof.Machine.execQen cs addr len s
  | .qfrd cs addr len => Sys2Proof.Machine.execQfrd cs addr len s
  | .qfwr cs addr len => Sys2Proof.Machine.execQfwr cs addr len s
  | .qex cs addr len => Sys2Proof.Machine.execQex cs addr len s

end Sys2Proof.Machine
end

