-- ==== Sys2Proof/Machine/MicroOps.lean ====
section
/-! DEFINITION. The meaning of each micro-op (40_transport_and_phases R101, R102, R107 to R111, R124) and the
sequencer's step (R123, R125). -/

namespace Sys2Proof.Machine

/-- The precondition column of R101. -/
def MicroOp.pre (op : MicroOp) (s : State) : Bool :=
  match op with
  | .sel _ => !s.selActive
  | .unsel i => s.selActive && s.selId == i
  | .tx8 _ => s.pinCfg == .spi && s.selActive
  | .rx8 => s.pinCfg == .spi && s.selActive
  | .rx32 => s.pinCfg == .spi && s.selActive
  | .qtx _ => s.pinCfg == .qspi && s.selActive
  | .qrx => s.pinCfg == .qspi && s.selActive
  | .qskip => s.pinCfg == .qspi && s.selActive
  | .drain => true
  | .pins _ => !s.selActive
  | .mode m => !s.selActive && s.pinCfg == m
  | .settle => !s.selActive

/-- The answer of a transferring primitive as its backend may give it: SoftwareBitBang never times out (R102). An
answer the backend cannot give is read as `Ok` (log 6). -/
def admitTransfer (b : Backend) (a : Answer) : Answer :=
  match b, a with
  | .softwareBitBang, .timeout => .ok
  | _, a => a

/-- The answer of `DRAIN` as its backend may give it: `Ok` at once on SoftwareBitBang, `Ok` or `Timeout` on
HardwareAssisted (R102, R108). An answer the backend cannot give is read as `Ok` (log 6). -/
def admitDrain (b : Backend) (a : Answer) : Answer :=
  match b, a with
  | .hardwareAssisted, .timeout => .timeout
  | _, _ => .ok

/-- A transferring micro-op: on `Ok` the bytes `keep v` of the value go to `rbuf` and `upc` advances, on `Timeout` or
`Short` the error recovery runs (R101, R124). -/
def runTransfer (p : Primitive) (keep : BitVec 32 → List Byte) (d : Draw) (s : State) : State :=
  match admitTransfer s.params.backend d.answer with
  | .ok => ((s.transferred p d.value).received (keep d.value)).advance
  | .timeout => (s.brokenOff p).recover .transportTimeout
  | .short => (s.brokenOff p).recover .shortTransfer

/-- The byte a byte primitive returned, as a list. -/
def keepByte (v : BitVec 32) : List Byte := [v.setWidth 8]

/-- A value that is discarded. -/
def keepNone (_ : BitVec 32) : List Byte := []

/-- `SEL(i)` (R141). The framer's `BusBusy` branch goes through the recovery, as `raise` does (R12); the precondition
of R101 keeps it from being reached (log 9). -/
def runSel (i : LineId) (s : State) : State :=
  match framerSel i s with
  | some t => t.advance
  | none => s.recover .busBusy

/-- `UNSEL(i)` (R142). -/
def runUnsel (i : LineId) (s : State) : State := (s.release i).advance

/-- `TX8(b)` (R101). -/
def runTx8 (b : Byte) (d : Draw) (s : State) : State := runTransfer (.xb b) keepNone d s

/-- `RX8` (R101, R115). -/
def runRx8 (d : Draw) (s : State) : State := runTransfer (.xb Config.filler) keepByte d s

/-- `RX32` (R101). -/
def runRx32 (d : Draw) (s : State) : State := runTransfer (.xw 0x00000000) wordBytes d s

/-- `QTX(b)` (R101). -/
def runQtx (b : Byte) (d : Draw) (s : State) : State := runTransfer (.wnp b) keepNone d s

/-- `QRX` (R101). -/
def runQrx (d : Draw) (s : State) : State := runTransfer .rnp keepByte d s

/-- `QSKIP` (R101, R115). -/
def runQskip (d : Draw) (s : State) : State := runTransfer .rnp keepNone d s

/-- `DRAIN` (R108). -/
def runDrain (d : Draw) (s : State) : State :=
  match admitDrain s.params.backend d.answer with
  | .ok => s.drained.advance
  | _ => s.recover .transportTimeout

/-- `PINS(m)` (R107). -/
def runPins (m : WireMode) (s : State) : State := (s.setPins m).advance

/-- `MODE(m)` (R109). -/
def runMode (m : WireMode) (s : State) : State := (s.setMode m).advance

/-- `SETTLE` when the timer reports a wait of `us`: it ends once the minimum has passed (R110, R245) (log 8). -/
def runSettle (us : Nat) (s : State) : State :=
  if s.params.resetSettleMinUs ≤ us then s.advance else s

/-- The micro-op `op` with the transport's answer `d`, its precondition holding. `SETTLE` waits for the timer (R110). -/
def runOp (op : MicroOp) (d : Draw) (s : State) : State :=
  match op with
  | .sel i => runSel i s
  | .unsel i => runUnsel i s
  | .tx8 b => runTx8 b d s
  | .rx8 => runRx8 d s
  | .rx32 => runRx32 d s
  | .qtx b => runQtx b d s
  | .qrx => runQrx d s
  | .qskip => runQskip d s
  | .drain => runDrain d s
  | .pins m => runPins m s
  | .mode m => runMode m s
  | .settle => s

/-- The micro-op that is due, `prog[upc]` (R123). -/
def State.dueOp (s : State) : Option MicroOp := s.prog[s.upc]?

/-- The sequencer's step with the transport's answer `d`: run the due micro-op (R123), or complete the command (R125),
or fault where R111 asks for it. An idle sequencer does nothing. -/
def sequencerTurn (d : Draw) (s : State) : Host.Outcome State Fault Refusal :=
  if s.busy then
    match s.dueOp with
    | some op => if op.pre s then .next (runOp op d s) else .fault .internalPrecondition
    | none => if s.upc = s.prog.length then .next s.complete else .fault .programOverrun
  else .next s

/-- The timer's report: it ends a due `SETTLE` whose minimum has passed, and does nothing else (R110). -/
def timerTurn (us : Nat) (s : State) : Host.Outcome State Fault Refusal :=
  if s.busy then
    match s.dueOp with
    | some .settle => if MicroOp.settle.pre s then .next (runSettle us s) else .fault .internalPrecondition
    | _ => .next s
  else .next s

/-- A free draw has been used (log 5). -/
def State.countDraw (s : State) : State := { s with drawCount := s.drawCount + 1 }

/-- The sequencer's step where no event is listed: the transport's answer and the timer's report are free values
(93 I2 to I4, I23) (log 5). An idle block waits for a request (R260). -/
def freeTurn (s : State) : Host.Outcome State Fault Refusal :=
  if s.busy then
    match s.dueOp with
    | some .settle => timerTurn (Config.freeWaitUs s.drawCount) s.countDraw
    | _ => sequencerTurn (Config.freeDraw s.drawCount) s.countDraw
  else .next s

end Sys2Proof.Machine
end

