-- ==== Sys2Proof/Machine/Turn.lean ====
section
/-! DEFINITION. One turn of one agent: the next event of `inputs` takes effect, or the sequencer goes on by itself
(00_scope R10, 40_transport_and_phases R123, R127, R128). Machine/Step.lean only calls what stands here. -/

namespace Sys2Proof.Machine

/-- Host `h` has a request outstanding: its command is the one that runs (R128). -/
def State.waiting (s : State) (h : Nat) : Bool := s.busy && s.curHost == h

/-- Host `h` exists and may submit: it has no request outstanding (R7, R128). -/
def State.maySubmit (s : State) (h : Nat) : Bool := decide (h < s.params.nHost) && !s.waiting h

/-- The event at the head of `inputs` is taken. -/
def State.withInputs (s : State) (es : List Event) : State := { s with inputs := es }

/-- The host interface presents host `h` and its write data (R70). -/
def State.present (s : State) (h : Nat) (wdata : List Byte) : State :=
  { s with port := { host := h, wdata := wdata } }

/-- A command word on the host interface is decoded, then run or answered as reserved (R78, R120 to R122). -/
def submitWord (word : CmdWord) (s : State) : Host.Outcome State Fault Refusal :=
  match decode word with
  | .cmd i => exec i s
  | .reserved _ => .next (submitReserved s)

/-- A read of the STATUS view by host `h`: no side effect on the block (R31). -/
def State.readStatus (s : State) (h : Nat) : State :=
  if h < s.params.nHost then
    { s with statusReads := s.statusReads ++ [{ host := h, value := s.statusView }] }
  else s

/-- What an event does. A submission of a host that does not exist, or that has a request outstanding, does not take
place (R128) (log 7). -/
def takeEvent (e : Event) (s : State) : Host.Outcome State Fault Refusal :=
  match e with
  | .submit h word wdata => if s.maySubmit h then submitWord word (s.present h wdata) else .next s
  | .readStatus h => .next (s.readStatus h)
  | .transport d => sequencerTurn d s
  | .timer us => timerTurn us s

/-- One turn: the next event, or, where none is listed, the sequencer with free draws (log 4, log 5). -/
def turn (s : State) : Host.Outcome State Fault Refusal :=
  match s.inputs with
  | [] => freeTurn s
  | e :: es => takeEvent e (s.withInputs es)

/-- A host that has no request outstanding: host 0, or host 1 while host 0 waits (R128). -/
def State.freeHost (s : State) : Nat := if s.waiting 0 then 1 else 0

/-- The write data that goes with a word: `LEN` zero bytes for a write, none for any other command (R72) (log 4). -/
def zeroData (word : CmdWord) : List Byte :=
  match decode word with
  | .cmd (.fwr _ _ len) => List.replicate len.toNat 0
  | .cmd (.qfwr _ _ len) => List.replicate len.toNat 0
  | _ => []

/-- The submission of `word` becomes the next event (log 4). -/
def placeSubmission (word : CmdWord) (s : State) : State :=
  s.withInputs (.submit s.freeHost word (zeroData word) :: s.inputs)

end Sys2Proof.Machine
end

