-- ==== Sys2Proof/Machine/Step.lean ====
section
/-! DEFINITION. The step function: one turn of one agent. -/

namespace Sys2Proof.Machine

/-- One step of the machine: the next event, or the sequencer by itself (40_transport_and_phases R120 to R125). -/
def step (s : State) : Host.Outcome State Fault Refusal := turn s

/-- The command word made of the low `nbits` bits of `w` is the next thing a host submits (log 4). -/
def State.withFetchWord (s : State) (nbits w : Nat) : State :=
  placeSubmission (BitVec.ofNat 64 (w % 2 ^ nbits)) s

end Sys2Proof.Machine
end

