-- ==== Sys2Proof/WellFormed.lean ====
section
/-! DEFINITION. Which commands an assembler writes: every field a command ignores is 0 (30_encoding R72, R86).
The block itself accepts any value in an ignored field (R72), so decoding and execution do not ask for this. -/

namespace Sys2Proof

/-- A command that reads `CS` alone has `ADDR` = 0 and `LEN` = 0 (R72, R86). -/
def controlFieldsZero (addr : Addr) (len : Len) : Bool := addr == 0 && len == 0

/-- A mode transition has `CS` = 0, `ADDR` = 0 and `LEN` = 0 (R72, R86). -/
def transitionFieldsZero (cs : LineId) (addr : Addr) (len : Len) : Bool :=
  cs == 0 && addr == 0 && len == 0

/-- The command is one that the assembler of R86 writes: its ignored fields are 0. -/
def Instr.wellFormed : Instr → Bool
  | .rsten _ a l => controlFieldsZero a l
  | .rst _ a l => controlFieldsZero a l
  | .rdid _ a l => controlFieldsZero a l
  | .tglbl _ a l => controlFieldsZero a l
  | .frd _ _ _ => true
  | .fwr _ _ _ => true
  | .qen c a l => transitionFieldsZero c a l
  | .qfrd _ _ _ => true
  | .qfwr _ _ _ => true
  | .qex c a l => transitionFieldsZero c a l

end Sys2Proof
end

