-- ==== Sys2Proof/Machine/Assembler.lean ====
section
/-! DEFINITION. The host-program notation of 30_encoding R86, its refusals, and the pseudo-instruction RESETDEV (R87). -/

namespace Sys2Proof.Machine

/-- One line of a host program, its operands as written (R86). -/
inductive AsmLine where
  | rsten (cs : Nat)
  | rst (cs : Nat)
  | rdid (cs : Nat)
  | tglbl (cs : Nat)
  | frd (cs addr len : Nat)
  | fwr (cs addr : Nat) (bytes : List Byte)
  | qen
  | qfrd (cs addr len : Nat)
  | qfwr (cs addr : Nat) (bytes : List Byte)
  | qex
  /-- a host read of the STATUS view: no command, no word (R86) -/
  | status
deriving DecidableEq, Repr

/-- A request: the command word and the write data (R70). -/
structure Request where
  word : CmdWord
  wdata : List Byte
deriving DecidableEq, Repr

/-- The assembler refuses `cs` > 15, `addr` > 0xFFFFFF and `len` > 2^32-1 (R86). -/
def asmInRange (cs addr len : Nat) : Bool := decide (cs ≤ 15) && decide (addr ≤ 0xFFFFFF) && decide (len ≤ 0xFFFFFFFF)

/-- The request of a line with these operands, if they are in range (R86). -/
def asmRequest (mk : LineId → Addr → Len → Instr) (cs addr len : Nat) (wdata : List Byte) : Option Request :=
  if asmInRange cs addr len then
    some
      { word := encode (mk (BitVec.ofNat 4 cs) (BitVec.ofNat 24 addr) (BitVec.ofNat 32 len))
        wdata := wdata }
  else none

/-- The request a line stands for: ignored fields are 0 (R86). `none` where the assembler refuses, and for STATUS. -/
def assemble (l : AsmLine) : Option Request :=
  match l with
  | .rsten cs => asmRequest .rsten cs 0 0 []
  | .rst cs => asmRequest .rst cs 0 0 []
  | .rdid cs => asmRequest .rdid cs 0 0 []
  | .tglbl cs => asmRequest .tglbl cs 0 0 []
  | .frd cs addr len => asmRequest .frd cs addr len []
  | .fwr cs addr bytes => asmRequest .fwr cs addr bytes.length bytes
  | .qen => asmRequest .qen 0 0 0 []
  | .qfrd cs addr len => asmRequest .qfrd cs addr len []
  | .qfwr cs addr bytes => asmRequest .qfwr cs addr bytes.length bytes
  | .qex => asmRequest .qex 0 0 0 []
  | .status => none

/-- `RESETDEV cs`: two requests, `RSTEN cs` then `RST cs` (R87). -/
def resetDev (cs : Nat) : List AsmLine := [.rsten cs, .rst cs]

/-- What host `h` does for a line: a STATUS read or a submission. -/
def AsmLine.event (l : AsmLine) (h : Nat) : Option Event :=
  match l with
  | .status => some (.readStatus h)
  | l => (assemble l).map fun r => .submit h r.word r.wdata

end Sys2Proof.Machine
end

