-- ==== Sys2Proof/Machine/Memory.lean ====
section
/-! DEFINITION. A device's byte array, for the ideal-device fixture and the round-trip property alone (00_scope R14,
20_memory R58): the block itself holds no memory array. The array is a list of (address, byte) pairs in one canonical
form: addresses strictly rising and below 2^24, and no entry 0x00, which is what an unlisted address reads as
(95_test_vectors section 1: "all 0x00") (log 19). -/

namespace Sys2Proof.Machine

/-- How many bytes the 24-bit address reaches (R50). -/
def arraySize : Nat := 2 ^ 24

/-- What an unlisted address reads as: the fixture's start value (log 19). -/
def unlistedByte : Byte := 0x00

/-- The byte at address `a`. -/
def memByte (m : List Host.Cell) (a : Nat) : Byte :=
  match m with
  | [] => unlistedByte
  | (k, v) :: t => if k = a then v else memByte t a

/-- The cell of address `a` put before `t`, or left out where it reads as an unlisted address does. -/
def consCell (a : Nat) (v : Byte) (t : List Host.Cell) : List Host.Cell :=
  if v = unlistedByte then t else (a, v) :: t

/-- Write one byte, keeping the canonical form. -/
def setByte (m : List Host.Cell) (a : Nat) (v : Byte) : List Host.Cell :=
  match m with
  | [] => consCell a v []
  | (k, w) :: t =>
    if a < k then consCell a v ((k, w) :: t)
    else if a = k then consCell a v t
    else (k, w) :: setByte t a v

/-- The canonical form above a bound: every address is at least `lo`, strictly rising, in range, and no entry reads
as an unlisted address does. -/
def memWfFrom (lo : Nat) (m : List Host.Cell) : Bool :=
  match m with
  | [] => true
  | (k, v) :: t => decide (lo ≤ k) && decide (k < arraySize) && v != unlistedByte && memWfFrom (k + 1) t

/-- The canonical form of a device's array. -/
def Memory.wf (m : List Host.Cell) : Bool := memWfFrom 0 m

/-- `MemRead(dev, addr, n)` on the fixture's array: `n` bytes from `addr`, wrapping at 2^24 (R14, 95 section 1). -/
def memRead (m : List Host.Cell) (addr n : Nat) : List Byte :=
  match n with
  | 0 => []
  | n + 1 => memByte m (addr % arraySize) :: memRead m (addr + 1) n

/-- `MemWrite(dev, addr, n, v)` on the fixture's array, `n` the length of `v` (R14, 95 section 1). -/
def memWrite (m : List Host.Cell) (addr : Nat) (v : List Byte) : List Host.Cell :=
  match v with
  | [] => m
  | b :: bs => memWrite (setByte m (addr % arraySize) b) (addr + 1) bs

end Sys2Proof.Machine
end

