-- ==== Sys2Proof/Machine/Fixture.lean ====
section
/-! DEFINITION. The ideal-device fixture of 95_test_vectors section 1, closed around the block: it answers the
transport's primitives as the devices would. It is no part of the block (92 D39, 00_scope R14); the round-trip
property of 20_memory R58 takes it as its premise. -/

namespace Sys2Proof.Machine

/-- One test device. `none` in a latch, and `known` = false, say that the fixture leaves that state unknown. -/
structure Device where
  /-- `mem_i` -/
  mem : List Host.Cell
  /-- `mode_i` -/
  mode : WireMode
  /-- `rsten_i` -/
  rsten : Option Bool
  /-- `bl_i` -/
  burst : Option Bool
  /-- `id_i` -/
  id : BitVec 64
  /-- false once a cut frame has left the device's state unknown -/
  known : Bool
deriving DecidableEq, Repr

/-- A device at its start value (95 section 1). -/
def Device.start (id : BitVec 64) : Device where
  mem := []
  mode := .spi
  rsten := some false
  burst := some false
  id := id
  known := true

/-- The address a frame carries in the three bytes after its opcode. -/
def frameAddr (afterOpcode : List Byte) : Nat :=
  match afterOpcode with
  | a2 :: a1 :: a0 :: _ => a2.toNat * 65536 + a1.toNat * 256 + a0.toNat
  | _ => 0

/-- Byte `j` of an identifier, byte 0 the highest. -/
def idByte (id : BitVec 64) (j : Nat) : Byte := id.extractLsb' (56 - 8 * j) 8

/-- The byte a device in SPI mode shifts out while the last byte of `outs` is shifted in; `none` is any value. -/
def spiAnswer (pad : Nat) (dev : Device) (outs : List Byte) : Option Byte :=
  match outs with
  | [] => none
  | op :: rest =>
    if op = 0x0B then
      if rest.length ≤ 4 then some 0x00
      else some (memByte dev.mem ((frameAddr rest + (rest.length - 5)) % arraySize))
    else if op = 0x9F then
      if pad < rest.length ∧ rest.length ≤ pad + 8 then some (idByte dev.id (rest.length - pad - 1)) else none
    else none

/-- The byte a device in QSPI mode returns to nibble-pair read number `reads` of a frame; `none` is any value. -/
def qspiAnswer (dev : Device) (outs : List Byte) (reads : Nat) : Option Byte :=
  match outs with
  | [] => none
  | op :: rest =>
    if op = 0xEB then
      if reads < 3 then some 0x00 else some (memByte dev.mem ((frameAddr rest + (reads - 3)) % arraySize))
    else none

/-- A device stores a data byte of a write frame: `outs` ends with the byte just sent (95 section 1). -/
def storeByte (writeOp : Byte) (dev : Device) (outs : List Byte) (b : Byte) : Device :=
  match outs with
  | [] => dev
  | op :: rest =>
    if op = writeOp ∧ 4 ≤ rest.length then
      { dev with mem := setByte dev.mem ((frameAddr rest + (rest.length - 4)) % arraySize) b }
    else dev

/-- The opcode with which a device in mode `m` takes a write. -/
def writeOpcode (p : Params) (m : WireMode) : Byte :=
  match m with
  | .spi => 0x02
  | .qspi => p.qspiWriteOpcode

/-- The device can follow a frame sent in mode `m`. -/
def Device.follows (dev : Device) (m : WireMode) : Bool := dev.known && dev.mode == m

/-- What the end of a whole frame does to its device (95 section 1). -/
def endFrame (p : Params) (m : WireMode) (outs : List Byte) (dev : Device) : Device :=
  let other := { dev with rsten := some false }
  if dev.follows m then
    match m with
    | .spi =>
      if outs.head? = some 0x66 then { dev with rsten := some true }
      else if outs.head? = some 0x99 then
        match dev.rsten with
        | some true => { other with mode := .spi, burst := some false }
        | some false => other
        | none => { other with burst := if dev.burst = some false then some false else none }
      else if outs.head? = some 0xC0 then { other with burst := dev.burst.map not }
      else if outs.head? = some 0x35 then { other with mode := .qspi }
      else other
    | .qspi => if outs = p.exitSequence then { other with mode := .spi } else other
  else if dev.known then other
  else dev

/-- A latch of which it is not known whether it was cleared. -/
def mayClear (l : Option Bool) : Option Bool := if l = some false then some false else none

/-- The opcodes of frames that change no array and no mode. -/
def readsOnly (m : WireMode) (op : Option Byte) : Bool :=
  match m with
  | .spi => op == some 0x0B || op == some 0x9F
  | .qspi => op == some 0xEB

/-- What a frame cut off by the error recovery does to its device: `outs` are the bytes whose primitive returned `Ok`,
`failing` the byte whose primitive did not, `queued` says that some output may not have reached the wire (95 section 1,
"Fault injection") (log 24). -/
def cutFrame (m : WireMode) (outs : List Byte) (failing : Option Byte) (queued : Bool) (dev : Device) : Device :=
  let cleared := { dev with rsten := mayClear dev.rsten }
  if dev.known then
    if queued then if readsOnly m outs.head? || dev.mode != m then cleared else { dev with known := false }
    else if outs.isEmpty && dev.mode == m then
      if failing = some 0x66 then { dev with rsten := none }
      else if failing = some 0x99 ∨ failing = some 0xC0 then { cleared with burst := none }
      else cleared
    else { dev with rsten := some false }
  else dev

/-- The block, the devices, the frame under way, the answer to inject, and the host program still to run. -/
structure Bench where
  blk : State
  devs : List Device
  /-- bytes sent in the frame under way -/
  outs : List Byte
  /-- nibble-pair reads made in the frame under way -/
  reads : Nat
  /-- the micro-op index at which to inject an answer, and that answer -/
  inject : Option (Nat × Answer)
  /-- the host's requests and STATUS reads still to come, each taken when the block is idle -/
  script : List Event
deriving DecidableEq, Repr

/-- The device on the selected line, if it follows frames of mode `m`. -/
def Bench.selected (b : Bench) (m : WireMode) : Option Device :=
  match b.devs[b.blk.selId.toNat]? with
  | some dev => if dev.follows m then some dev else none
  | none => none

/-- The free value of the answer under way: where the fixture does not fix a byte of the answer, that byte is this
value's own byte in its place, so no two bytes of an answer are tied to each other (log 24). -/
def Bench.free (b : Bench) : BitVec 32 := (Config.freeDraw b.blk.drawCount).value

/-- The byte the selected device shifts out under SPI once `outs` has been shifted in, `free` where it may be any. -/
def Bench.spiByte (b : Bench) (outs : List Byte) (free : Byte) : Byte :=
  ((b.selected .spi).bind fun dev => spiAnswer b.blk.params.readIdPadBytes dev outs).getD free

/-- The byte the selected device returns to a nibble-pair read. -/
def Bench.qspiByte (b : Bench) : Byte :=
  ((b.selected .qspi).bind fun dev => qspiAnswer dev b.outs b.reads).getD (b.free.setWidth 8)

/-- The value the transport returns for the due micro-op. -/
def Bench.value (b : Bench) (op : Option MicroOp) : BitVec 32 :=
  match op with
  | some (.tx8 v) => (b.spiByte (b.outs ++ [v]) (b.free.setWidth 8)).setWidth 32
  | some .rx8 => (b.spiByte (b.outs ++ [Config.filler]) (b.free.setWidth 8)).setWidth 32
  | some .rx32 =>
    b.spiByte (b.outs ++ [0]) (b.free.extractLsb' 24 8) ++ b.spiByte (b.outs ++ [0, 0]) (b.free.extractLsb' 16 8)
      ++ b.spiByte (b.outs ++ [0, 0, 0]) (b.free.extractLsb' 8 8)
      ++ b.spiByte (b.outs ++ [0, 0, 0, 0]) (b.free.extractLsb' 0 8)
  | some .qrx => b.qspiByte.setWidth 32
  | some .qskip => b.qspiByte.setWidth 32
  | _ => 0

/-- How the due primitive returns: `Ok`, or the injected answer. -/
def Bench.answer (b : Bench) : Answer :=
  match b.inject with
  | some (k, a) => if k = b.blk.upc then a else .ok
  | none => .ok

/-- Change the device on the selected line. -/
def Bench.onSelected (b : Bench) (f : Device → Device) : List Device := b.devs.modify b.blk.selId.toNat f

/-- The injection once the micro-op at `upc` has been answered. -/
def Bench.injectLeft (b : Bench) : Option (Nat × Answer) :=
  match b.inject with
  | some (k, a) => if k = b.blk.upc then none else some (k, a)
  | none => none

/-- A byte has been sent: the device may store it. -/
def Bench.sent (b : Bench) (m : WireMode) (v : Byte) (t : State) : Bench :=
  { b with
    blk := t
    outs := b.outs ++ [v]
    inject := b.injectLeft
    devs := b.onSelected fun dev =>
      if dev.follows m then storeByte (writeOpcode b.blk.params m) dev (b.outs ++ [v]) v else dev }

/-- The frame under way has been cut off by the error recovery. -/
def Bench.cut (b : Bench) (failing : Option Byte) (t : State) : Bench :=
  { b with
    blk := t
    outs := []
    reads := 0
    inject := b.injectLeft
    devs := b.onSelected (cutFrame b.blk.pinCfg b.outs failing (!b.blk.inFlight.isEmpty)) }

/-- A micro-op that moves no byte of the frame has run. -/
def Bench.moved (b : Bench) (t : State) : Bench := { b with blk := t, inject := b.injectLeft }

/-- The bench after the block has gone from `b.blk` to `t` by the due micro-op. A transfer or a drain that leaves the
block idle has failed. -/
def Bench.after (b : Bench) (op : Option MicroOp) (t : State) : Bench :=
  match op with
  | some (.sel _) => { b.moved t with outs := [], reads := 0 }
  | some (.unsel _) =>
    { b.moved t with outs := [], reads := 0, devs := b.onSelected (endFrame b.blk.params b.blk.pinCfg b.outs) }
  | some (.tx8 v) => if t.busy then b.sent .spi v t else b.cut (some v) t
  | some .rx8 => if t.busy then { b.moved t with outs := b.outs ++ [Config.filler] } else b.cut none t
  | some .rx32 => if t.busy then { b.moved t with outs := b.outs ++ [0, 0, 0, 0] } else b.cut none t
  | some (.qtx v) => if t.busy then b.sent .qspi v t else b.cut (some v) t
  | some .qrx => if t.busy then { b.moved t with reads := b.reads + 1 } else b.cut none t
  | some .qskip => if t.busy then { b.moved t with reads := b.reads + 1 } else b.cut none t
  | some .drain => if t.busy then b.moved t else b.cut none t
  | _ => b.moved t

/-- The event the bench gives a busy block: the transport's answer, or the timer's report that the minimum has passed. -/
def Bench.event (b : Bench) : Event :=
  match b.blk.dueOp with
  | some .settle => .timer b.blk.params.resetSettleMinUs
  | op => .transport { answer := b.answer, value := b.value op }

/-- One turn of the bench: a busy block is answered, an idle block is given the host's next line (95 section 4). -/
def Bench.turn (b : Bench) : Host.Outcome Bench Fault Refusal :=
  if b.blk.busy then
    match step (b.blk.countDraw.withInputs [b.event]) with
    | .next t => .next (b.after b.blk.dueOp t)
    | .fault r => .fault r
    | .refused r => .refused r
  else
    match b.script with
    | [] => .next b
    | e :: es =>
      match step (b.blk.withInputs [e]) with
      | .next t => .next { b with blk := t, script := es }
      | .fault r => .fault r
      | .refused r => .refused r

/-- `n` turns of the bench. -/
def Bench.run (n : Nat) (b : Bench) : Host.Outcome Bench Fault Refusal :=
  match n with
  | 0 => .next b
  | n + 1 =>
    match b.turn with
    | .next b' => Bench.run n b'
    | .fault r => .fault r
    | .refused r => .refused r

/-- A bench right after reset, with a device on every line and a host program to run (95 section 4). -/
def Bench.start (p : Params) (ids : List (BitVec 64)) (script : List Event) : Bench where
  blk := State.resetWith p
  devs := ids.map Device.start
  outs := []
  reads := 0
  inject := none
  script := script

end Sys2Proof.Machine
end

