-- ==== Sys2Proof/Machine/Wire.lean ====
section
/-! DEFINITION. The bit-level expansion of the wire trace, clock cycle by clock cycle (40_transport_and_phases R103 to
R106, 30_encoding R84, R85), and the SCLK counts of 70_reset_and_hazards R277. No rule of the step reads it (R9)
(log 27). -/

namespace Sys2Proof.Machine

/-- What one data line does in one SCLK cycle. `undriven` is no level: the spec fixes none (93 I14) (log 16). -/
inductive Level where
  /-- the block drives the line -/
  | driven (b : Bool)
  /-- the block samples the line and finds this level -/
  | sampled (b : Bool)
  /-- no rule drives or samples the line -/
  | undriven
deriving DecidableEq, Repr

/-- The four data lines in one SCLK cycle. -/
structure Cycle where
  sio3 : Level
  sio2 : Level
  sio1 : Level
  sio0 : Level
deriving DecidableEq, Repr

/-- An SPI cycle: SIO0 out, SIO1 in, SIO2 and SIO3 not driven (R103). -/
def spiCycle (out inp : Bool) : Cycle where
  sio3 := .undriven
  sio2 := .undriven
  sio1 := .sampled inp
  sio0 := .driven out

/-- A QSPI write cycle: SIOk carries bit `k` of the nibble (R105). -/
def nibbleOut (n : BitVec 4) : Cycle where
  sio3 := .driven (n.getLsbD 3)
  sio2 := .driven (n.getLsbD 2)
  sio1 := .driven (n.getLsbD 1)
  sio0 := .driven (n.getLsbD 0)

/-- A QSPI read cycle: the block drives nothing and samples SIOk into bit `k` (R106). -/
def nibbleIn (n : BitVec 4) : Cycle where
  sio3 := .sampled (n.getLsbD 3)
  sio2 := .sampled (n.getLsbD 2)
  sio1 := .sampled (n.getLsbD 1)
  sio0 := .sampled (n.getLsbD 0)

/-- `XB(b)`: in cycle `j` SIO0 carries `b[7-j]` and SIO1 is sampled into `r[7-j]` (R103). -/
def xbCycles (b r : Byte) : List Cycle :=
  (List.range 8).map fun j => spiCycle (b.getLsbD (7 - j)) (r.getLsbD (7 - j))

/-- `XW(w)`: in cycle `j` SIO0 carries `w[31-j]` and SIO1 is sampled into `r[31-j]` (R104). -/
def xwCycles (w r : BitVec 32) : List Cycle :=
  (List.range 32).map fun j => spiCycle (w.getLsbD (31 - j)) (r.getLsbD (31 - j))

/-- `WNP(b)`: the upper nibble, then the lower (R105). -/
def wnpCycles (b : Byte) : List Cycle := [nibbleOut (b.extractLsb' 4 4), nibbleOut (b.extractLsb' 0 4)]

/-- `RNP()` returning `r`: the upper nibble, then the lower (R106). -/
def rnpCycles (r : Byte) : List Cycle := [nibbleIn (r.extractLsb' 4 4), nibbleIn (r.extractLsb' 0 4)]

/-- The SCLK cycles of one wire event. A failed primitive's are unknown (R237). -/
def WireEvent.cycles (e : WireEvent) : Option (List Cycle) :=
  match e with
  | .csFall _ => some []
  | .csRise _ => some []
  | .xb o i => some (xbCycles o i)
  | .xw o i => some (xwCycles o i)
  | .wnp o => some (wnpCycles o)
  | .rnp i => some (rnpCycles i)
  | .setPins _ => some []
  | .broken _ => none

/-- The SCLK cycles of a stretch of the trace, unknown if one of its primitives failed. -/
def traceCycles : List WireEvent → Option (List Cycle)
  | [] => some []
  | e :: es =>
    match e.cycles, traceCycles es with
    | some c, some cs => some (c ++ cs)
    | _, _ => none

/-- How many SCLK cycles a micro-op takes (R103 to R106). -/
def MicroOp.sclk (op : MicroOp) : Nat :=
  match op with
  | .sel _ => 0
  | .unsel _ => 0
  | .tx8 _ => 8
  | .rx8 => 8
  | .rx32 => 32
  | .qtx _ => 2
  | .qrx => 2
  | .qskip => 2
  | .drain => 0
  | .pins _ => 0
  | .mode _ => 0
  | .settle => 0

/-- How many SCLK cycles an expansion takes (R277). -/
def progSclk (prog : List MicroOp) : Nat := (prog.map MicroOp.sclk).sum

/-- The level a line is driven to, if it is driven. -/
def Level.out (l : Level) : Option Bool :=
  match l with
  | .driven b => some b
  | .sampled _ => none
  | .undriven => none

/-- The level found on a line, if it is sampled. -/
def Level.inp (l : Level) : Option Bool :=
  match l with
  | .driven _ => none
  | .sampled b => some b
  | .undriven => none

end Sys2Proof.Machine
end

