-- ==== Sys2Proof/Safety.lean ====
section
/-! DEFINITION. What counts as a safe state and a safe run, in the terms the statements use: the invariants of
10_state R35, the walk of an expansion along the preconditions of 40_transport_and_phases R101, and the inputs of a
run in which every agent answers. -/

namespace Sys2Proof.Machine

/-- What the preconditions of R101 look at, with `clean` saying that no output is in flight (R64, R108). -/
structure Pose where
  sel : Bool
  id : LineId
  pin : WireMode
  mode : WireMode
  clean : Bool
deriving DecidableEq, Repr

/-- The pose of a state. -/
def State.pose (s : State) : Pose where
  sel := s.selActive
  id := s.selId
  pin := s.pinCfg
  mode := s.wireMode
  clean := s.inFlight.isEmpty

/-- Whether no output is in flight after a primitive that sends something (R34a, R108). -/
def cleanAfterOutput (b : Backend) (clean : Bool) : Bool :=
  match b with
  | .softwareBitBang => clean
  | .hardwareAssisted => false

/-- The pose after the micro-op has returned `Ok`; `none` where its precondition fails, where it names no line of the
block, or where it releases a line or changes the pins with output still in flight (R101, R64, R269). -/
def Pose.after (p : Params) (q : Pose) (op : MicroOp) : Option Pose :=
  match op with
  | .sel i => if !q.sel && decide (i.toNat < p.nCs) then some { q with sel := true, id := i } else none
  | .unsel i => if q.sel && q.id == i && q.clean then some { q with sel := false } else none
  | .tx8 _ =>
    if q.pin == .spi && q.sel then some { q with clean := cleanAfterOutput p.backend q.clean } else none
  | .rx8 =>
    if q.pin == .spi && q.sel then some { q with clean := cleanAfterOutput p.backend q.clean } else none
  | .rx32 =>
    if q.pin == .spi && q.sel then some { q with clean := cleanAfterOutput p.backend q.clean } else none
  | .qtx _ =>
    if q.pin == .qspi && q.sel then some { q with clean := cleanAfterOutput p.backend q.clean } else none
  | .qrx => if q.pin == .qspi && q.sel then some q else none
  | .qskip => if q.pin == .qspi && q.sel then some q else none
  | .drain => some { q with clean := true }
  | .pins m => if !q.sel && q.clean then some { q with pin := m } else none
  | .mode m => if !q.sel && q.pin == m then some { q with mode := m } else none
  | .settle => if !q.sel then some q else none

/-- The pose after a list of micro-ops. -/
def walk (p : Params) (q : Pose) (prog : List MicroOp) : Option Pose :=
  match prog with
  | [] => some q
  | op :: ops =>
    match q.after p op with
    | some q' => walk p q' ops
    | none => none

/-- No line held, pins and mode agreeing, nothing in flight: how a command must end (R35c). -/
def Pose.atRest (q : Pose) : Bool := !q.sel && q.pin == q.mode && q.clean

/-- From pose `q` the micro-ops `prog` meet every precondition and end at rest (R101, R111). -/
def runsOut (p : Params) (q : Pose) (prog : List MicroOp) : Bool :=
  match walk p q prog with
  | some q' => q'.atRest
  | none => false

/-- How many bytes a micro-op appends to `rbuf` on `Ok` (R101). -/
def MicroOp.bytesRead (op : MicroOp) : Nat :=
  match op with
  | .sel _ => 0
  | .unsel _ => 0
  | .tx8 _ => 0
  | .rx8 => 1
  | .rx32 => 4
  | .qtx _ => 0
  | .qrx => 1
  | .qskip => 0
  | .drain => 0
  | .pins _ => 0
  | .mode _ => 0
  | .settle => 0

/-- How many bytes an expansion reads. -/
def bytesToRead (prog : List MicroOp) : Nat := (prog.map MicroOp.bytesRead).sum

/-- How many bytes a command reads: 8 for RDID, `L` for FRD and QFRD, none otherwise (30_encoding R73, R80). -/
def bytesWanted (cmd : CmdCode) (len : Len) : Nat :=
  if cmd = 0x3 then 8 else if cmd = 0x5 ∨ cmd = 0x8 then len.toNat else 0

/-- The lines of a block that holds a selection or none: the selected line is low, every other high (R25). -/
def linesOf (nCs : Nat) (selActive : Bool) (selId : LineId) : List Bool :=
  if selActive then (List.replicate nCs true).set selId.toNat false else List.replicate nCs true

/-- How many lines are low. -/
def lowLines (lines : List Bool) : Nat := lines.count false

/-- The expansion of the command with code `cmd` and these latches, written out as 42_command_protocol R161 to R169 and
43_mode_controller R202, R205 give it; a reserved code has none. -/
def commandProgram (p : Params) (cmd : CmdCode) (cs : LineId) (addr : Addr) (len : Len) (wbuf : List Byte) :
    List MicroOp :=
  let a2 := addr.extractLsb' 16 8
  let a1 := addr.extractLsb' 8 8
  let a0 := addr.extractLsb' 0 8
  match cmd.toNat with
  | 0x1 => [.sel cs, .tx8 0x66, .drain, .unsel cs]
  | 0x2 => [.sel cs, .tx8 0x99, .drain, .unsel cs, .settle]
  | 0x3 => [.sel cs, .tx8 0x9F] ++ List.replicate p.readIdPadBytes (.tx8 0x00) ++ [.rx32, .rx32, .drain, .unsel cs]
  | 0x4 => [.sel cs, .tx8 0xC0, .drain, .unsel cs]
  | 0x5 =>
    [.sel cs, .tx8 0x0B, .tx8 a2, .tx8 a1, .tx8 a0, .tx8 0x00] ++ List.replicate len.toNat .rx8 ++ [.drain, .unsel cs]
  | 0x6 => [.sel cs, .tx8 0x02, .tx8 a2, .tx8 a1, .tx8 a0] ++ wbuf.map .tx8 ++ [.drain, .unsel cs]
  | 0x7 =>
    (List.range p.nCs).flatMap (fun i => [.sel (BitVec.ofNat 4 i), .tx8 0x35, .drain, .unsel (BitVec.ofNat 4 i)])
      ++ [.pins .qspi, .mode .qspi]
  | 0x8 =>
    [.sel cs, .qtx 0xEB, .qtx a2, .qtx a1, .qtx a0, .qskip, .qskip, .qskip] ++ List.replicate len.toNat .qrx
      ++ [.drain, .unsel cs]
  | 0x9 => [.sel cs, .qtx p.qspiWriteOpcode, .qtx a2, .qtx a1, .qtx a0] ++ wbuf.map .qtx ++ [.drain, .unsel cs]
  | 0xA =>
    (List.range p.nCs).flatMap
        (fun i => [.sel (BitVec.ofNat 4 i)] ++ p.exitSequence.map .qtx ++ [.drain, .unsel (BitVec.ofNat 4 i)])
      ++ [.pins .spi, .mode .spi]
  | _ => []

/-- The lengths of the expansions as the table of 40_transport_and_phases R129 gives them. -/
def programLength (p : Params) (cmd : CmdCode) (len : Len) : Nat :=
  match cmd.toNat with
  | 0x1 => 4
  | 0x2 => 5
  | 0x3 => 6 + p.readIdPadBytes
  | 0x4 => 4
  | 0x5 => 8 + len.toNat
  | 0x6 => 7 + len.toNat
  | 0x7 => 4 * p.nCs + 2
  | 0x8 => 10 + len.toNat
  | 0x9 => 7 + len.toNat
  | 0xA => (3 + p.exitSequence.length) * p.nCs + 2
  | _ => 0

/-- The SCLK cycles of a command as the table of 70_reset_and_hazards R277 gives them, all frames together. -/
def commandSclk (p : Params) (cmd : CmdCode) (len : Len) : Nat :=
  match cmd.toNat with
  | 0x1 => 8
  | 0x2 => 8
  | 0x3 => 8 + 8 * p.readIdPadBytes + 64
  | 0x4 => 8
  | 0x5 => 40 + 8 * len.toNat
  | 0x6 => 32 + 8 * len.toNat
  | 0x7 => 8 * p.nCs
  | 0x8 => 14 + 2 * len.toNat
  | 0x9 => 8 + 2 * len.toNat
  | 0xA => 2 * p.exitSequence.length * p.nCs
  | _ => 0

/-- The answer to a submission, by the fields of its word as numbers: check 0 and checks 1 to 5 of 60_exceptions R240
in their order, `none` when the request is accepted. -/
def answerTo (s : State) (w : CmdWord) (wdata : List Byte) : Option Status :=
  let cmd := w.toNat % 16
  let cs := w.toNat / 16 % 16
  let len := w.toNat / 2 ^ 32
  if s.busy then some (if cmd = 7 ∨ cmd = 10 then .invalidModeTransition else .busBusy)
  else if cmd = 0 ∨ 11 ≤ cmd then some .badArgument
  else if cmd ≠ 7 ∧ cmd ≠ 10 ∧ s.params.nCs ≤ cs then some .badArgument
  else if (cmd = 5 ∨ cmd = 6 ∨ cmd = 8 ∨ cmd = 9) ∧ s.params.maxLen.toNat < len then some .badArgument
  else if (cmd = 6 ∨ cmd = 9) ∧ wdata.length ≠ len then some .badArgument
  else if (if cmd = 8 ∨ cmd = 9 ∨ cmd = 10 then WireMode.qspi else WireMode.spi) ≠ s.wireMode then
    some .invalidModeTransition
  else none

/-- The micro-op `op` is due, the sequencer takes the next turn, and the transport answers with `d` (R123). -/
def State.dueWith (s : State) (op : MicroOp) (d : Draw) (es : List Event) : Prop :=
  s.busy = true ∧ s.dueOp = some op ∧ s.inputs = .transport d :: es

/-- What a command leaves once it has run to its completion and responded `r`, `events` having gone over the wire, the
last selection being `sel`; the wire mode and the pins as they were. -/
def State.afterCommand (s : State) (i : Instr) (h : Nat) (wdata : List Byte) (sel : LineId) (events : List WireEvent)
    (r : Response) (es : List Event) : State :=
  { s with
    inputs := es
    port := { host := h, wdata := wdata }
    curHost := h
    curCmd := i.code
    curCs := i.line
    curAddr := i.addr
    curLen := i.len
    selId := sel
    lastStatus := .ok
    wire := s.wire ++ events
    responses := s.responses ++ [{ host := h, response := r }] }

/-- The invariants of the machine: those of R35, with what makes them inductive. -/
structure Inv (s : State) : Prop where
  /-- the parameters lie in their ranges (R7) -/
  params : s.params.wf = true
  /-- the lines are those of the selection (R25, R35a, R35b) -/
  lines : s.csN = linesOf s.params.nCs s.selActive s.selId
  /-- `sel_id` names a line of the block (R20) -/
  selId : s.selId.toNat < s.params.nCs
  /-- a selection is held only while a command runs (R35d) -/
  selBusy : s.selActive = true → s.busy = true
  /-- an idle block is at rest and its program and buffers are empty (R27, R35c, R125, R236); that it has no output in
  flight is the model's choice after reset (log 12) and after a recovery (93 I8) (log 11) -/
  idle : s.busy = false →
    s.pinCfg = s.wireMode ∧ s.prog = [] ∧ s.upc = 0 ∧ s.rbuf = [] ∧ s.wbuf = [] ∧ s.inFlight = []
  /-- `upc` never exceeds `|prog|` (R27) -/
  upc : s.upc ≤ s.prog.length
  /-- `prog` is the expansion of the accepted command (R27, R119) -/
  program : s.busy = true → s.prog = commandProgram s.params s.curCmd s.curCs s.curAddr s.curLen s.wbuf
  /-- what is left of the expansion meets every precondition and ends at rest (R101, R111) -/
  runs : s.busy = true → runsOut s.params s.pose (s.prog.drop s.upc) = true
  /-- on SoftwareBitBang nothing is ever in flight (R108) -/
  queue : s.params.backend = .softwareBitBang → s.inFlight = []
  /-- the running command's host exists (R20) -/
  host : s.busy = true → s.curHost < s.params.nHost
  /-- the bytes read and still to be read are those the command reads (R73) -/
  reads : s.busy = true → s.rbuf.length + bytesToRead (s.prog.drop s.upc) = bytesWanted s.curCmd s.curLen
  /-- the write data is that of a write (R28) -/
  writes : s.busy = true → s.wbuf.length = if s.curCmd = 0x6 ∨ s.curCmd = 0x9 then s.curLen.toNat else 0
  /-- `last_status` is never `BusBusy` (R30) -/
  status : s.lastStatus ≠ .busBusy
  /-- on SoftwareBitBang no command ever times out (R102, R233) -/
  noTimeout : s.params.backend = .softwareBitBang → s.lastStatus ≠ .transportTimeout

/-- Nothing a host can read of the state shows a timeout: neither `last_status` nor a response so far (R233). -/
def State.NoTimeoutShown (s : State) : Prop :=
  s.lastStatus ≠ .transportTimeout ∧ ∀ r ∈ s.responses, r.response.status ≠ .transportTimeout

/-- `n` steps of the machine, stopping at the first fault or refusal. -/
def runSteps (n : Nat) (s : State) : Host.Outcome State Fault Refusal :=
  match n with
  | 0 => .next s
  | n + 1 =>
    match step s with
    | .next t => runSteps n t
    | .fault r => .fault r
    | .refused r => .refused r

/-- A state that a run from reset reaches, for some parameters in range and some inputs. -/
inductive Reachable (s : State) : Prop where
  | intro (p : Params) (es : List Event) (n : Nat) (wf : p.wf = true)
      (run : runSteps n ((State.resetWith p).withInputs es) = .next s)

/-- An answer of the transport with which a primitive returns `Ok` with value `v`. -/
def okEvent (v : BitVec 32) : Event := .transport { answer := .ok, value := v }

/-- The event with which an external agent answers a due micro-op: the timer's report of the minimum wait for `SETTLE`
(R110), the transport's answer `d` for any other. -/
def answerEvent (p : Params) (op : MicroOp) (d : Draw) : Event :=
  match op with
  | .settle => .timer p.resetSettleMinUs
  | _ => .transport d

/-- The answers that let what is left of an expansion run to its end: one for each micro-op, the `n`-th being `d n`, and
one turn for the completion step (R123 to R125). -/
def answerEvents (p : Params) (d : Nat → Draw) (prog : List MicroOp) : List Event :=
  prog.mapIdx (fun n op => answerEvent p op (d n)) ++ [.transport (d prog.length)]

/-- Draws that all answer `Ok`, the `n`-th with value `v n`. -/
def okDraws (v : Nat → BitVec 32) (n : Nat) : Draw := { answer := .ok, value := v n }

/-- The transport primitive a micro-op runs, if it runs one that moves bits (R101). -/
def MicroOp.primitive (op : MicroOp) : Option Primitive :=
  match op with
  | .sel _ => none
  | .unsel _ => none
  | .tx8 b => some (.xb b)
  | .rx8 => some (.xb 0x00)
  | .rx32 => some (.xw 0x00000000)
  | .qtx b => some (.wnp b)
  | .qrx => some .rnp
  | .qskip => some .rnp
  | .drain => none
  | .pins _ => none
  | .mode _ => none
  | .settle => none

/-- What a micro-op that returns `Ok` with value `v` puts in the wire trace (R101, R141, R142). -/
def MicroOp.wireEvents (op : MicroOp) (v : BitVec 32) : List WireEvent :=
  match op with
  | .sel i => [.csFall i]
  | .unsel i => [.csRise i]
  | .tx8 b => [.xb b (v.setWidth 8)]
  | .rx8 => [.xb 0x00 (v.setWidth 8)]
  | .rx32 => [.xw 0x00000000 v]
  | .qtx b => [.wnp b]
  | .qrx => [.rnp (v.setWidth 8)]
  | .qskip => [.rnp (v.setWidth 8)]
  | .drain => []
  | .pins m => [.setPins m]
  | .mode _ => []
  | .settle => []

/-- The bytes that a micro-op that returns `Ok` with value `v` appends to `rbuf` (R101). -/
def MicroOp.readBytes (op : MicroOp) (v : BitVec 32) : List Byte :=
  match op with
  | .sel _ => []
  | .unsel _ => []
  | .tx8 _ => []
  | .rx8 => [v.setWidth 8]
  | .rx32 => [v.extractLsb' 24 8, v.extractLsb' 16 8, v.extractLsb' 8 8, v.extractLsb' 0 8]
  | .qtx _ => []
  | .qrx => [v.setWidth 8]
  | .qskip => []
  | .drain => []
  | .pins _ => []
  | .mode _ => []
  | .settle => []

/-- The wire trace of a whole expansion whose primitives all return `Ok`. -/
def progWire (v : Nat → BitVec 32) (prog : List MicroOp) : List WireEvent :=
  (prog.mapIdx fun n op => op.wireEvents (v n)).flatten

/-- The bytes read by a whole expansion whose primitives all return `Ok`. -/
def progReads (v : Nat → BitVec 32) (prog : List MicroOp) : List Byte :=
  (prog.mapIdx fun n op => op.readBytes (v n)).flatten

/-- The opcode bytes of 30_encoding R80, the exit pattern apart (R81). -/
def opcodeTable (p : Params) : List Byte :=
  [0x66, 0x99, 0x9F, 0xC0, 0x0B, 0x02, 0x35, 0xEB, p.qspiWriteOpcode]

end Sys2Proof.Machine
end

