-- ==== Sys2Proof/Certificates/Slice0/Obligations.lean ====
section
/-! DEFINITION. The statements for the provers, each a definition of a proposition. OBLIGATIONS.json lists them. -/

open Sys2Proof Sys2Proof.Machine

/-! ### Encoding -/

/-- Decoding the word of any command gives that command, with every field at every value (R71, R78). (That a command
keeps the fields it ignores, so that they too come back, is the model's choice: DEDUCED, log 15.) -/
def Obligations.DecodeOfEncodeIsTheCommand : Prop :=
  ∀ i : Instr, decode (encode i) = .cmd i

/-- A word that decodes to a command is that command's word, bit for bit, and a word that decodes to none has a
reserved code (R77, R78). (Bit for bit is the model's choice: `Instr` keeps the fields a command ignores, DEDUCED, log
15. The assembler of R72 and R86 writes those fields as 0, so its word of QEN is 7, while R78 decodes 0xFFFFFFFF12345607
to QEN too.) -/
def Obligations.EncodeOfDecodeIsTheWord : Prop :=
  ∀ w : CmdWord,
    (∀ i, decode w = .cmd i → encode i = w) ∧
    (∀ c, decode w = .reserved c → c.toNat = w.toNat % 16 ∧ (w.toNat % 16 = 0 ∨ 11 ≤ w.toNat % 16))

/-- R71, R78: which command a word spells, its fields given as numbers: `CMD` the word modulo 16, `CS` the next four bits,
`ADDR` the next 24, `LEN` the top 32; every other code is reserved. (R78 gives RSTEN, RST, RDID and TGLBL with `CS`
alone, and QEN and QEX with no field. That the decoded command also keeps the fields it ignores is the model's choice:
DEDUCED, log 15.) -/
def Obligations.DecodeReadsTheCommandAndItsFields : Prop :=
  ∀ (w : CmdWord) (cs : LineId) (addr : Addr) (len : Len),
    cs.toNat = w.toNat / 16 % 16 → addr.toNat = w.toNat / 256 % 2 ^ 24 → len.toNat = w.toNat / 2 ^ 32 →
    (w.toNat % 16 = 0x1 → decode w = .cmd (.rsten cs addr len)) ∧
    (w.toNat % 16 = 0x2 → decode w = .cmd (.rst cs addr len)) ∧
    (w.toNat % 16 = 0x3 → decode w = .cmd (.rdid cs addr len)) ∧
    (w.toNat % 16 = 0x4 → decode w = .cmd (.tglbl cs addr len)) ∧
    (w.toNat % 16 = 0x5 → decode w = .cmd (.frd cs addr len)) ∧
    (w.toNat % 16 = 0x6 → decode w = .cmd (.fwr cs addr len)) ∧
    (w.toNat % 16 = 0x7 → decode w = .cmd (.qen cs addr len)) ∧
    (w.toNat % 16 = 0x8 → decode w = .cmd (.qfrd cs addr len)) ∧
    (w.toNat % 16 = 0x9 → decode w = .cmd (.qfwr cs addr len)) ∧
    (w.toNat % 16 = 0xA → decode w = .cmd (.qex cs addr len)) ∧
    (w.toNat % 16 = 0 ∨ 0xB ≤ w.toNat % 16 → ∃ c : CmdCode, c.toNat = w.toNat % 16 ∧ decode w = .reserved c)

/-- Words written out by hand in R88 and in 95_test_vectors 3.1 decode to the commands they stand for. (That QEN keeps
the fields it ignores is the model's choice: DEDUCED, log 15.) -/
def Obligations.WrittenOutWordsDecode : Prop :=
  decode 0x0000000000000001 = .cmd (.rsten 0 0 0) ∧
  decode 0x0000000000000012 = .cmd (.rst 1 0 0) ∧
  decode 0x0000000000000013 = .cmd (.rdid 1 0 0) ∧
  decode 0x0000000000000014 = .cmd (.tglbl 1 0 0) ∧
  decode 0x00000000ABCDEF15 = .cmd (.frd 1 0xABCDEF 0) ∧
  decode 0x0000000212345616 = .cmd (.fwr 1 0x123456 2) ∧
  decode 0xFFFFFFFF12345607 = .cmd (.qen 0 0x123456 0xFFFFFFFF) ∧
  decode 0x00000004FFFFFF08 = .cmd (.qfrd 0 0xFFFFFF 4) ∧
  decode 0x0000000100010009 = .cmd (.qfwr 0 0x000100 1) ∧
  decode 0x00000000000000FA = .cmd (.qex 15 0 0) ∧
  decode 0xFFFFFFFFFFFFFFFF = .reserved 0xF ∧
  decode 0x0000000000000000 = .reserved 0

/-- R86: the word and the write data of every line whose operands are in range, the lines the assembler refuses, and
that every word it makes decodes to a well-formed command, one whose ignored fields are 0. -/
def Obligations.AssembledLinesAreTheirWords : Prop :=
  (∀ (cs code : Nat) (l : AsmLine),
    (l = .rsten cs ∧ code = 1) ∨ (l = .rst cs ∧ code = 2) ∨ (l = .rdid cs ∧ code = 3) ∨ (l = .tglbl cs ∧ code = 4) →
    (cs ≤ 15 → ∃ r, assemble l = some r ∧ r.word.toNat = cs * 16 + code ∧ r.wdata = []) ∧
    (15 < cs → assemble l = none)) ∧
  (∀ (cs addr len code : Nat) (l : AsmLine),
    (l = .frd cs addr len ∧ code = 5) ∨ (l = .qfrd cs addr len ∧ code = 8) →
    (cs ≤ 15 ∧ addr ≤ 0xFFFFFF ∧ len ≤ 2 ^ 32 - 1 →
      ∃ r, assemble l = some r ∧ r.word.toNat = len * 2 ^ 32 + addr * 2 ^ 8 + cs * 16 + code ∧ r.wdata = []) ∧
    (15 < cs ∨ 0xFFFFFF < addr ∨ 2 ^ 32 - 1 < len → assemble l = none)) ∧
  (∀ (cs addr code : Nat) (bytes : List Byte) (l : AsmLine),
    (l = .fwr cs addr bytes ∧ code = 6) ∨ (l = .qfwr cs addr bytes ∧ code = 9) →
    (cs ≤ 15 ∧ addr ≤ 0xFFFFFF ∧ bytes.length ≤ 2 ^ 32 - 1 →
      ∃ r, assemble l = some r ∧ r.word.toNat = bytes.length * 2 ^ 32 + addr * 2 ^ 8 + cs * 16 + code ∧
        r.wdata = bytes) ∧
    (15 < cs ∨ 0xFFFFFF < addr ∨ 2 ^ 32 - 1 < bytes.length → assemble l = none)) ∧
  assemble .qen = some { word := 7, wdata := [] } ∧
  assemble .qex = some { word := 10, wdata := [] } ∧
  assemble .status = none ∧
  (∀ l r, assemble l = some r → ∃ i, decode r.word = .cmd i ∧ i.wellFormed = true)

/-! ### Reset and the invariants -/

/-- R20, R260: every field the spec gives a reset value holds it after reset, whatever the parameters, and STATUS reads
0x0000. (The latches, whose zeros are the model's choice, log 3, are not named.) -/
def Obligations.ResetLeavesTheStatedValues : Prop :=
  ∀ p : Params,
    (State.resetWith p).wireMode = .spi ∧ (State.resetWith p).pinCfg = .spi ∧
    (State.resetWith p).selActive = false ∧ (State.resetWith p).selId = 0 ∧
    (State.resetWith p).csN.length = p.nCs ∧ (∀ b ∈ (State.resetWith p).csN, b = true) ∧
    (State.resetWith p).busy = false ∧ (State.resetWith p).prog = [] ∧ (State.resetWith p).upc = 0 ∧
    (State.resetWith p).wbuf = [] ∧ (State.resetWith p).rbuf = [] ∧ (State.resetWith p).lastStatus = .ok ∧
    (State.resetWith p).statusView = 0x0000 ∧ State.reset = State.resetWith Params.defaults

/-- The invariants hold right after reset, for every choice of parameters in range and whatever the environment is
going to do. (`Inv.idle` includes that the transport's queue is empty. No rule says so of reset: it is the model's
choice, DESIGN CHOICE, log 12.) -/
def Obligations.InvariantHoldsAtReset : Prop :=
  ∀ (p : Params) (es : List Event), p.wf = true → Inv ((State.resetWith p).withInputs es)

/-- Every step keeps the invariants, from every state that has them (R27, R28, R30, R35, R101). (`Inv.idle` includes that
an idle block has no output in flight. After an error recovery that is the model's choice: R236 has no drain, 93 I8 says
that queued output may be lost or may still appear, and the model drops it, DEDUCED, log 11. What the queue holds is the
model's reading, DEDUCED, log 12.) -/
def Obligations.StepKeepsTheInvariant : Prop :=
  ∀ s t : State, Inv s → step s = .next t → Inv t

/-- R101, R111: from every state with the invariants a step answers a next state, whatever the environment does and
whatever the free draws are. No expansion reaches the fault of R111, and no command is refused. -/
def Obligations.InvariantStatesNeverStop : Prop :=
  ∀ s : State, Inv s → ∃ t, step s = .next t

/-- R35 and R144: in every reachable state, (a) a selection is held exactly while exactly one line is low, and then that
line is `sel_id`; (b) none is held exactly while every line is high; (c) an idle block holds none, its pins and mode
agree, and its program is empty; (d) a selection is held only while busy. At most one line is low. -/
def Obligations.ReachableSelectionIsExclusive : Prop :=
  ∀ s : State, Reachable s →
    (s.selActive = true ↔ lowLines s.csN = 1) ∧
    (s.selActive = true → ∀ i : Nat, s.csN[i]? = some false → i = s.selId.toNat) ∧
    (s.selActive = false ↔ ∀ b ∈ s.csN, b = true) ∧
    (s.busy = false → s.selActive = false ∧ s.pinCfg = s.wireMode ∧ s.prog = [] ∧ s.upc = 0) ∧
    (s.selActive = true → s.busy = true) ∧
    (∀ i j : Nat, s.csN[i]? = some false → s.csN[j]? = some false → i = j)

/-- R21, R200: a step that changes `wire_mode` runs the last micro-op of QEN, from SPI to QSPI, or the last micro-op of
QEX, from QSPI to SPI, or is the error recovery, to SPI. -/
def Obligations.OnlyTransitionsAndRecoveryChangeTheMode : Prop :=
  ∀ s t : State, Inv s → step s = .next t → t.wireMode ≠ s.wireMode →
    (s.busy = true ∧ s.curCmd = 0x7 ∧ s.upc + 1 = s.prog.length ∧ s.wireMode = .spi ∧ t.wireMode = .qspi) ∨
    (s.busy = true ∧ s.curCmd = 0xA ∧ s.upc + 1 = s.prog.length ∧ s.wireMode = .qspi ∧ t.wireMode = .spi) ∨
    (s.busy = true ∧ t.busy = false ∧ t.wireMode = .spi ∧
      (t.lastStatus = .transportTimeout ∨ t.lastStatus = .shortTransfer))

/-- R36: what a step must be doing where it changes a field of the block, in every state. `rbuf` and `wbuf` are also
emptied where a command ends (R125, R236). No step writes the parameters. -/
def Obligations.StepWritesOnlyWhatR36Lists : Prop :=
  ∀ s t : State, step s = .next t →
    let due (op : MicroOp) : Prop := s.busy = true ∧ s.dueOp = some op
    let accepted : Prop := s.busy = false ∧ t.busy = true
    let ended : Prop := s.busy = true ∧ t.busy = false
    let recovered : Prop := ended ∧ (t.lastStatus = .transportTimeout ∨ t.lastStatus = .shortTransfer)
    t.params = s.params ∧
    (t.wireMode ≠ s.wireMode → (∃ m, due (.mode m)) ∨ recovered) ∧
    (t.pinCfg ≠ s.pinCfg → (∃ m, due (.pins m)) ∨ recovered) ∧
    (t.selActive ≠ s.selActive ∨ t.csN ≠ s.csN → (∃ i, due (.sel i) ∨ due (.unsel i)) ∨ recovered) ∧
    (t.selId ≠ s.selId → ∃ i, due (.sel i)) ∧
    (t.busy ≠ s.busy ∨ t.prog ≠ s.prog ∨ t.wbuf ≠ s.wbuf → accepted ∨ ended) ∧
    (t.upc ≠ s.upc → accepted ∨ ended ∨ (s.busy = true ∧ t.busy = true ∧ t.upc = s.upc + 1)) ∧
    (t.curHost ≠ s.curHost ∨ t.curCmd ≠ s.curCmd ∨ t.curCs ≠ s.curCs ∨ t.curAddr ≠ s.curAddr ∨ t.curLen ≠ s.curLen →
      accepted) ∧
    (t.rbuf ≠ s.rbuf → accepted ∨ ended ∨ due .rx8 ∨ due .rx32 ∨ due .qrx) ∧
    (t.lastStatus ≠ s.lastStatus → (s.busy = false ∧ t.busy = false) ∨ ended)

/-! ### Submissions -/

/-- R121: a submission while busy is answered at once, QEN and QEX with `InvalidModeTransition` and every other word,
reserved codes too, with `BusBusy`, and nothing else of the block changes. (The host is one that may submit, R128;
`inputs` and `port` are the model's own fields, logs 4 and 20.) -/
def Obligations.SubmissionWhileBusyIsRejected : Prop :=
  ∀ (s : State) (h : Nat) (w : CmdWord) (wdata : List Byte) (es : List Event),
    s.busy = true → h < s.params.nHost → s.curHost ≠ h → s.inputs = .submit h w wdata :: es →
    step s = .next
      { s with
        inputs := es
        port := { host := h, wdata := wdata }
        responses := s.responses ++
          [{ host := h
             response :=
              { status := if w.toNat % 16 = 7 ∨ w.toNat % 16 = 10 then .invalidModeTransition else .busBusy
                rdata := []
                id := none
                vendorKgd := none
                eid := none } }] }

/-- R120, R122, R240: a submission while idle is decided by checks 1 to 5 in their order. Where one fails, its status is
the response and `last_status`, and nothing else of the block changes. Where all pass, the latches take the word's
fields, `prog` is the command's expansion, and neither the wire nor `last_status` is touched. (`inputs` and `port` are
the model's own fields, logs 4 and 20.) -/
def Obligations.SubmissionWhileIdleIsDecidedByTheChecks : Prop :=
  ∀ (s : State) (h : Nat) (w : CmdWord) (wdata : List Byte) (es : List Event),
    s.busy = false → h < s.params.nHost → s.inputs = .submit h w wdata :: es →
    (∀ st, answerTo s w wdata = some st →
      step s = .next
        { s with
          inputs := es
          port := { host := h, wdata := wdata }
          lastStatus := st
          responses := s.responses ++
            [{ host := h, response := { status := st, rdata := [], id := none, vendorKgd := none, eid := none } }] }) ∧
    (answerTo s w wdata = none →
      step s = .next
        { s with
          inputs := es
          port := { host := h, wdata := wdata }
          busy := true
          curHost := h
          curCmd := w.extractLsb' 0 4
          curCs := w.extractLsb' 4 4
          curAddr := w.extractLsb' 8 24
          curLen := w.extractLsb' 32 32
          wbuf := if w.toNat % 16 = 6 ∨ w.toNat % 16 = 9 then wdata else []
          rbuf := []
          prog :=
            commandProgram s.params (w.extractLsb' 0 4) (w.extractLsb' 4 4) (w.extractLsb' 8 24) (w.extractLsb' 32 32)
              (if w.toNat % 16 = 6 ∨ w.toNat % 16 = 9 then wdata else [])
          upc := 0 })

/-- R128, as the model reads it (DEDUCED, log 7): a host whose request is outstanding, or that does not exist, submits
nothing. Its event goes by and the state is otherwise as it was. -/
def Obligations.WaitingHostSubmitsNothing : Prop :=
  ∀ (s : State) (h : Nat) (w : CmdWord) (wdata : List Byte) (es : List Event),
    (s.busy = true ∧ s.curHost = h) ∨ s.params.nHost ≤ h → s.inputs = .submit h w wdata :: es →
    step s = .next { s with inputs := es }

/-- R127: of two hosts that submit to an idle block one after the other, the first is accepted and the second gets
R121's answer, in either order: the two hosts stand for any two. -/
def Obligations.FirstOfTwoHostsIsAccepted : Prop :=
  ∀ (s : State) (h k : Nat) (w x : CmdWord) (d e : List Byte) (es : List Event),
    s.busy = false → h < s.params.nHost → k < s.params.nHost → h ≠ k → answerTo s w d = none →
    s.inputs = .submit h w d :: .submit k x e :: es →
    ∃ t, runSteps 2 s = .next t ∧ t.busy = true ∧ t.curHost = h ∧ t.upc = 0 ∧ t.inputs = es ∧
      t.lastStatus = s.lastStatus ∧ t.wire = s.wire ∧
      t.responses = s.responses ++
        [{ host := k
           response :=
            { status := if x.toNat % 16 = 7 ∨ x.toNat % 16 = 10 then .invalidModeTransition else .busBusy
              rdata := []
              id := none
              vendorKgd := none
              eid := none } }]

/-- A step whose next event is a submission, by a host that may submit, of a word that decodes to a command is `exec` of
that command, with the event taken and the request on the host interface; and `withFetchWord` makes the next step, in an
idle block that has a host, run the command of the word it is given, submitted by host 0 with `zeroData` of the word as
write data: `LEN` zero bytes for FWR and QFWR, none for any other command. (The model's choices in it: that the word is
submitted, by which host and with which write data, log 4; the events to come, `inputs`, log 4; and `port`, where the
host and the write data stand, log 20.) -/
def Obligations.StepRunsTheDecodedCommand : Prop :=
  (∀ (s : State) (h : Nat) (w : CmdWord) (wdata : List Byte) (es : List Event) (i : Instr),
    h < s.params.nHost → ¬(s.busy = true ∧ s.curHost = h) → s.inputs = .submit h w wdata :: es → decode w = .cmd i →
    step s = exec i { s with inputs := es, port := { host := h, wdata := wdata } }) ∧
  (∀ (s : State) (nbits w : Nat) (i : Instr),
    s.busy = false → 0 < s.params.nHost → decodeTableWord nbits w = some i →
    step (s.withFetchWord nbits w) =
      exec i { s with port := { host := 0, wdata := zeroData (BitVec.ofNat 64 (w % 2 ^ nbits)) } })

/-! ### Each command accepted: its own expansion and nothing else -/

/-- R120, R161: RSTEN under SPI, on a line that exists, is accepted by an idle block. -/
def Obligations.ResetEnableIsAccepted : Prop :=
  ∀ (cs : LineId) (a : Addr) (l : Len) (s : State),
    s.busy = false → s.wireMode = .spi → cs.toNat < s.params.nCs →
    exec (.rsten cs a l) s = .next
      { s with
        busy := true, curHost := s.port.host, curCmd := 0x1, curCs := cs, curAddr := a, curLen := l
        wbuf := [], rbuf := [], upc := 0
        prog := [.sel cs, .tx8 0x66, .drain, .unsel cs] }

/-- R120, R162: RST under SPI, on a line that exists, is accepted by an idle block; its expansion ends in `SETTLE`. -/
def Obligations.ResetIsAccepted : Prop :=
  ∀ (cs : LineId) (a : Addr) (l : Len) (s : State),
    s.busy = false → s.wireMode = .spi → cs.toNat < s.params.nCs →
    exec (.rst cs a l) s = .next
      { s with
        busy := true, curHost := s.port.host, curCmd := 0x2, curCs := cs, curAddr := a, curLen := l
        wbuf := [], rbuf := [], upc := 0
        prog := [.sel cs, .tx8 0x99, .drain, .unsel cs, .settle] }

/-- R120, R163: RDID under SPI, on a line that exists, is accepted by an idle block. -/
def Obligations.ReadIdIsAccepted : Prop :=
  ∀ (cs : LineId) (a : Addr) (l : Len) (s : State),
    s.busy = false → s.wireMode = .spi → cs.toNat < s.params.nCs →
    exec (.rdid cs a l) s = .next
      { s with
        busy := true, curHost := s.port.host, curCmd := 0x3, curCs := cs, curAddr := a, curLen := l
        wbuf := [], rbuf := [], upc := 0
        prog := [.sel cs, .tx8 0x9F] ++ List.replicate s.params.readIdPadBytes (.tx8 0x00) ++
          [.rx32, .rx32, .drain, .unsel cs] }

/-- R120, R165: TGLBL under SPI, on a line that exists, is accepted by an idle block. -/
def Obligations.ToggleBurstLengthIsAccepted : Prop :=
  ∀ (cs : LineId) (a : Addr) (l : Len) (s : State),
    s.busy = false → s.wireMode = .spi → cs.toNat < s.params.nCs →
    exec (.tglbl cs a l) s = .next
      { s with
        busy := true, curHost := s.port.host, curCmd := 0x4, curCs := cs, curAddr := a, curLen := l
        wbuf := [], rbuf := [], upc := 0
        prog := [.sel cs, .tx8 0xC0, .drain, .unsel cs] }

/-- R120, R166: FRD under SPI, on a line that exists and of a length within `MAX_LEN`, is accepted by an idle block. -/
def Obligations.FastReadSpiIsAccepted : Prop :=
  ∀ (cs : LineId) (a : Addr) (l : Len) (s : State),
    s.busy = false → s.wireMode = .spi → cs.toNat < s.params.nCs → l.toNat ≤ s.params.maxLen.toNat →
    exec (.frd cs a l) s = .next
      { s with
        busy := true, curHost := s.port.host, curCmd := 0x5, curCs := cs, curAddr := a, curLen := l
        wbuf := [], rbuf := [], upc := 0
        prog := [.sel cs, .tx8 0x0B, .tx8 (a.extractLsb' 16 8), .tx8 (a.extractLsb' 8 8), .tx8 (a.extractLsb' 0 8),
          .tx8 0x00] ++ List.replicate l.toNat .rx8 ++ [.drain, .unsel cs] }

/-- R120, R167: FWR under SPI, on a line that exists, of a length within `MAX_LEN` and with that many bytes of write
data, is accepted by an idle block. -/
def Obligations.FastWriteSpiIsAccepted : Prop :=
  ∀ (cs : LineId) (a : Addr) (l : Len) (s : State),
    s.busy = false → s.wireMode = .spi → cs.toNat < s.params.nCs → l.toNat ≤ s.params.maxLen.toNat →
    s.port.wdata.length = l.toNat →
    exec (.fwr cs a l) s = .next
      { s with
        busy := true, curHost := s.port.host, curCmd := 0x6, curCs := cs, curAddr := a, curLen := l
        wbuf := s.port.wdata, rbuf := [], upc := 0
        prog := [.sel cs, .tx8 0x02, .tx8 (a.extractLsb' 16 8), .tx8 (a.extractLsb' 8 8), .tx8 (a.extractLsb' 0 8)] ++
          s.port.wdata.map .tx8 ++ [.drain, .unsel cs] }

/-- R120, R201, R202: QEN under SPI is accepted by an idle block, whatever its fields: an enable-qspi frame on every line
in ascending order, then the pins, then the mode. -/
def Obligations.EnterQspiIsAccepted : Prop :=
  ∀ (cs : LineId) (a : Addr) (l : Len) (s : State),
    s.busy = false → s.wireMode = .spi →
    exec (.qen cs a l) s = .next
      { s with
        busy := true, curHost := s.port.host, curCmd := 0x7, curCs := cs, curAddr := a, curLen := l
        wbuf := [], rbuf := [], upc := 0
        prog := (List.range s.params.nCs).flatMap
          (fun i => [.sel (BitVec.ofNat 4 i), .tx8 0x35, .drain, .unsel (BitVec.ofNat 4 i)]) ++
          [.pins .qspi, .mode .qspi] }

/-- R120, R168: QFRD under QSPI, on a line that exists and of a length within `MAX_LEN`, is accepted by an idle block. -/
def Obligations.FastReadQspiIsAccepted : Prop :=
  ∀ (cs : LineId) (a : Addr) (l : Len) (s : State),
    s.busy = false → s.wireMode = .qspi → cs.toNat < s.params.nCs → l.toNat ≤ s.params.maxLen.toNat →
    exec (.qfrd cs a l) s = .next
      { s with
        busy := true, curHost := s.port.host, curCmd := 0x8, curCs := cs, curAddr := a, curLen := l
        wbuf := [], rbuf := [], upc := 0
        prog := [.sel cs, .qtx 0xEB, .qtx (a.extractLsb' 16 8), .qtx (a.extractLsb' 8 8), .qtx (a.extractLsb' 0 8),
          .qskip, .qskip, .qskip] ++ List.replicate l.toNat .qrx ++ [.drain, .unsel cs] }

/-- R120, R169: QFWR under QSPI, on a line that exists, of a length within `MAX_LEN` and with that many bytes of write
data, is accepted by an idle block. -/
def Obligations.FastWriteQspiIsAccepted : Prop :=
  ∀ (cs : LineId) (a : Addr) (l : Len) (s : State),
    s.busy = false → s.wireMode = .qspi → cs.toNat < s.params.nCs → l.toNat ≤ s.params.maxLen.toNat →
    s.port.wdata.length = l.toNat →
    exec (.qfwr cs a l) s = .next
      { s with
        busy := true, curHost := s.port.host, curCmd := 0x9, curCs := cs, curAddr := a, curLen := l
        wbuf := s.port.wdata, rbuf := [], upc := 0
        prog := [.sel cs, .qtx s.params.qspiWriteOpcode, .qtx (a.extractLsb' 16 8), .qtx (a.extractLsb' 8 8),
          .qtx (a.extractLsb' 0 8)] ++ s.port.wdata.map .qtx ++ [.drain, .unsel cs] }

/-- R120, R204, R205: QEX under QSPI is accepted by an idle block, whatever its fields: an exit frame on every line in
ascending order, then the pins, then the mode. -/
def Obligations.ExitQspiIsAccepted : Prop :=
  ∀ (cs : LineId) (a : Addr) (l : Len) (s : State),
    s.busy = false → s.wireMode = .qspi →
    exec (.qex cs a l) s = .next
      { s with
        busy := true, curHost := s.port.host, curCmd := 0xA, curCs := cs, curAddr := a, curLen := l
        wbuf := [], rbuf := [], upc := 0
        prog := (List.range s.params.nCs).flatMap
          (fun i => [.sel (BitVec.ofNat 4 i)] ++ s.params.exitSequence.map .qtx ++
            [.drain, .unsel (BitVec.ofNat 4 i)]) ++ [.pins .spi, .mode .spi] }

/-- R72: values in fields a command ignores, and write data it ignores, change nothing but the latches that copy them:
not the expansion, not the response, not the status. And no later step reads those latches: from two states that differ
only in `cur_cs`, `cur_addr` and `cur_len` every step does the same. -/
def Obligations.IgnoredFieldsHaveNoEffect : Prop :=
  (∀ (mk : LineId → Addr → Len → Instr) (cs : LineId) (a b : Addr) (k l : Len) (d : List Byte) (s : State),
    mk = .rsten ∨ mk = .rst ∨ mk = .rdid ∨ mk = .tglbl →
    ∃ t u, exec (mk cs a k) s = .next t ∧ exec (mk cs b l) { s with port := { s.port with wdata := d } } = .next u ∧
      u = { t with curAddr := u.curAddr, curLen := u.curLen, port := u.port }) ∧
  (∀ (mk : LineId → Addr → Len → Instr) (cs : LineId) (a : Addr) (l : Len) (d : List Byte) (s : State),
    mk = .frd ∨ mk = .qfrd →
    ∃ t u, exec (mk cs a l) s = .next t ∧ exec (mk cs a l) { s with port := { s.port with wdata := d } } = .next u ∧
      u = { t with port := u.port }) ∧
  (∀ (mk : LineId → Addr → Len → Instr) (c e : LineId) (a b : Addr) (k l : Len) (d : List Byte) (s : State),
    mk = .qen ∨ mk = .qex →
    ∃ t u, exec (mk c a k) s = .next t ∧ exec (mk e b l) { s with port := { s.port with wdata := d } } = .next u ∧
      u = { t with curCs := u.curCs, curAddr := u.curAddr, curLen := u.curLen, port := u.port }) ∧
  (∀ (s t : State) (c : LineId) (a : Addr) (l : Len), step s = .next t →
    ∃ u, step { s with curCs := c, curAddr := a, curLen := l } = .next u ∧
      u = { t with curCs := u.curCs, curAddr := u.curAddr, curLen := u.curLen })

/-! ### Micro-ops -/

/-- R141, R142: `SEL(i)` drives line `i` and no other low and records the selection, and the framer selects nothing and
raises `BusBusy`, which goes through the error recovery, where one is held; `UNSEL(i)` drives it high again and `sel_id`
keeps its value. (R141 and R145a say that no expansion reaches the branch that raises `BusBusy`. In the model no step
reaches it either, since the step faults first on R101's precondition: DEDUCED, log 9.) -/
def Obligations.SelectAndReleaseMoveOneLine : Prop :=
  (∀ (s : State) (i : LineId) (d : Draw) (es : List Event), s.dueWith (.sel i) d es → s.selActive = false →
    step s = .next
      { s with
        inputs := es, upc := s.upc + 1, csN := s.csN.set i.toNat false, selActive := true, selId := i
        wire := s.wire ++ [.csFall i] }) ∧
  (∀ (s : State) (i : LineId), s.selActive = true → framerSel i s = none ∧ runSel i s = s.recover .busBusy) ∧
  (∀ (s : State) (i : LineId) (d : Draw) (es : List Event), s.dueWith (.unsel i) d es → s.selActive = true →
    s.selId = i →
    step s = .next
      { s with
        inputs := es, upc := s.upc + 1, csN := s.csN.set i.toNat true, selActive := false
        wire := s.wire ++ [.csRise i] })

/-- R101: `TX8`, `RX8` and `RX32` that the transport answers `Ok`: what they shift out, and what of the value shifted in
goes to `rbuf`. On HardwareAssisted their output may still be in flight (R108; which bytes the queue holds is the
model's reading, log 12). -/
def Obligations.SpiTransfersMoveTheirBytes : Prop :=
  ∀ (s : State) (v : BitVec 32) (es : List Event), s.pinCfg = .spi → s.selActive = true →
    (∀ b, s.dueWith (.tx8 b) { answer := .ok, value := v } es →
      step s = .next
        { s with
          inputs := es, upc := s.upc + 1, wire := s.wire ++ [.xb b (v.setWidth 8)]
          inFlight := if s.params.backend = .hardwareAssisted then s.inFlight ++ [b] else s.inFlight }) ∧
    (s.dueWith .rx8 { answer := .ok, value := v } es →
      step s = .next
        { s with
          inputs := es, upc := s.upc + 1, wire := s.wire ++ [.xb 0x00 (v.setWidth 8)]
          rbuf := s.rbuf ++ [v.setWidth 8]
          inFlight := if s.params.backend = .hardwareAssisted then s.inFlight ++ [0x00] else s.inFlight }) ∧
    (s.dueWith .rx32 { answer := .ok, value := v } es →
      step s = .next
        { s with
          inputs := es, upc := s.upc + 1, wire := s.wire ++ [.xw 0x00000000 v]
          rbuf := s.rbuf ++ [v.extractLsb' 24 8, v.extractLsb' 16 8, v.extractLsb' 8 8, v.extractLsb' 0 8]
          inFlight :=
            if s.params.backend = .hardwareAssisted then s.inFlight ++ [0x00, 0x00, 0x00, 0x00] else s.inFlight })

/-- R101: `QTX`, `QRX` and `QSKIP` that the transport answers `Ok`: what they drive or sample, and what goes to `rbuf`.
(Which bytes the queue of HardwareAssisted holds is the model's reading, log 12.) -/
def Obligations.QspiTransfersMoveTheirBytes : Prop :=
  ∀ (s : State) (v : BitVec 32) (es : List Event), s.pinCfg = .qspi → s.selActive = true →
    (∀ b, s.dueWith (.qtx b) { answer := .ok, value := v } es →
      step s = .next
        { s with
          inputs := es, upc := s.upc + 1, wire := s.wire ++ [.wnp b]
          inFlight := if s.params.backend = .hardwareAssisted then s.inFlight ++ [b] else s.inFlight }) ∧
    (s.dueWith .qrx { answer := .ok, value := v } es →
      step s = .next
        { s with
          inputs := es, upc := s.upc + 1, wire := s.wire ++ [.rnp (v.setWidth 8)]
          rbuf := s.rbuf ++ [v.setWidth 8] }) ∧
    (s.dueWith .qskip { answer := .ok, value := v } es →
      step s = .next { s with inputs := es, upc := s.upc + 1, wire := s.wire ++ [.rnp (v.setWidth 8)] })

/-- R107, R108, R109: `PINS(m)` sets the pins, `MODE(m)` the wire mode, and `DRAIN` empties the transport's queue, at
once on SoftwareBitBang and when the transport answers `Ok` on HardwareAssisted. (What the queue holds is the model's
reading, DEDUCED, log 12; that `DRAIN` reads an answer its backend cannot give as `Ok` is log 6.) -/
def Obligations.PinsModeAndDrainTakeEffect : Prop :=
  (∀ (s : State) (m : WireMode) (d : Draw) (es : List Event), s.dueWith (.pins m) d es → s.selActive = false →
    step s = .next { s with inputs := es, upc := s.upc + 1, pinCfg := m, wire := s.wire ++ [.setPins m] }) ∧
  (∀ (s : State) (m : WireMode) (d : Draw) (es : List Event), s.dueWith (.mode m) d es → s.selActive = false →
    s.pinCfg = m → step s = .next { s with inputs := es, upc := s.upc + 1, wireMode := m }) ∧
  (∀ (s : State) (d : Draw) (es : List Event), s.dueWith .drain d es →
    s.params.backend = .softwareBitBang ∨ d.answer = .ok →
    step s = .next { s with inputs := es, upc := s.upc + 1, inFlight := [] })

/-- R110: `SETTLE` holds the sequencer until the timer reports that at least `T_RESET_SETTLE_MIN` has passed. A shorter
report, and a turn of the sequencer, leave it waiting (that the report carries the time waited is the model's form,
log 8). -/
def Obligations.SettleEndsOnlyAfterTheMinimum : Prop :=
  ∀ (s : State) (es : List Event), s.busy = true → s.dueOp = some .settle → s.selActive = false →
    (∀ us, s.inputs = .timer us :: es → s.params.resetSettleMinUs ≤ us →
      step s = .next { s with inputs := es, upc := s.upc + 1 }) ∧
    (∀ us, s.inputs = .timer us :: es → us < s.params.resetSettleMinUs → step s = .next { s with inputs := es }) ∧
    (∀ d, s.inputs = .transport d :: es → step s = .next { s with inputs := es })

/-- R236, R234, R238: a transferring micro-op answered `Short`, or `Timeout` on HardwareAssisted, and a `DRAIN` answered
`Timeout` on HardwareAssisted, run the recovery: the held line is forced high with no drain, pins and mode become SPI,
the host gets the status and the bytes read before the error and no id, `last_status` takes the status, and the block is
idle. The model's own choices in it: output still queued is dropped (log 11), and the trace marks the primitive that
failed (log 13). -/
def Obligations.FailureRunsTheRecovery : Prop :=
  ∀ (s : State) (op : MicroOp) (d : Draw) (es : List Event) (e : Status) (broken : List WireEvent),
    s.dueWith op d es → op.pre s = true →
    (∃ p, op.primitive = some p ∧ broken = [.broken p] ∧
      ((d.answer = .short ∧ e = .shortTransfer) ∨
        (d.answer = .timeout ∧ e = .transportTimeout ∧ s.params.backend = .hardwareAssisted))) ∨
    (op = .drain ∧ broken = [] ∧ d.answer = .timeout ∧ e = .transportTimeout ∧
      s.params.backend = .hardwareAssisted) →
    step s = .next
      { s with
        inputs := es
        csN := if s.selActive then s.csN.set s.selId.toNat true else s.csN
        selActive := false
        pinCfg := .spi
        wireMode := .spi
        wire := s.wire ++ broken ++ (if s.selActive then [.csRise s.selId] else []) ++ [.setPins .spi]
        responses := s.responses ++
          [{ host := s.curHost
             response := { status := e, rdata := s.rbuf, id := none, vendorKgd := none, eid := none } }]
        lastStatus := e
        busy := false
        prog := []
        upc := 0
        rbuf := []
        wbuf := []
        inFlight := [] }

/-- R101, R111: a due micro-op whose precondition fails stops the sequencer with `InternalPrecondition`, whatever the
transport answers. For `SEL` with a selection held this puts R101 and R111 before the `BusBusy` that the framer would
raise (R141): DEDUCED, log 9. -/
def Obligations.FailedPreconditionFaults : Prop :=
  ∀ (s : State) (op : MicroOp) (d : Draw) (es : List Event), s.dueWith op d es →
    ((∃ i, op = .sel i ∧ s.selActive = true) ∨
      (∃ i, op = .unsel i ∧ (s.selActive = false ∨ s.selId ≠ i)) ∨
      ((op = .rx8 ∨ op = .rx32 ∨ ∃ b, op = .tx8 b) ∧ (s.pinCfg = .qspi ∨ s.selActive = false)) ∨
      ((op = .qrx ∨ op = .qskip ∨ ∃ b, op = .qtx b) ∧ (s.pinCfg = .spi ∨ s.selActive = false)) ∨
      ((op = .settle ∨ ∃ m, op = .pins m) ∧ s.selActive = true) ∨
      (∃ m, op = .mode m ∧ (s.selActive = true ∨ s.pinCfg ≠ m))) →
    step s = .fault .internalPrecondition

/-- R102, R233: with `BACKEND` = SoftwareBitBang, from every state that shows no `TransportTimeout`, not in `last_status`
and not in a response, every step keeps it so; and no state that a run from reset reaches shows one. (A `Timeout` that
stands in `inputs`, which R102 says such a transport does not answer, is read as `Ok`: log 6.) -/
def Obligations.SoftwareBitBangNeverTimesOut : Prop :=
  (∀ s t : State, s.params.backend = .softwareBitBang → s.NoTimeoutShown → step s = .next t →
    t.params.backend = .softwareBitBang ∧ t.NoTimeoutShown) ∧
  (∀ s : State, Reachable s → s.params.backend = .softwareBitBang → s.NoTimeoutShown)

/-- R125: completion hands the bytes read to the host with `OK`, for RDID with the id assembled from eight bytes, the
first highest, and its two parts; `last_status` is `OK` and the block is idle with empty buffers. -/
def Obligations.CompletionResponds : Prop :=
  ∀ (s : State) (d : Draw) (es : List Event), s.busy = true → s.upc = s.prog.length → s.inputs = .transport d :: es →
    (s.curCmd ≠ 0x3 →
      step s = .next
        { s with
          inputs := es
          responses := s.responses ++
            [{ host := s.curHost
               response := { status := .ok, rdata := s.rbuf, id := none, vendorKgd := none, eid := none } }]
          lastStatus := .ok, busy := false, prog := [], upc := 0, rbuf := [], wbuf := [] }) ∧
    (∀ b0 b1 b2 b3 b4 b5 b6 b7 : Byte, s.curCmd = 0x3 → s.rbuf = [b0, b1, b2, b3, b4, b5, b6, b7] →
      step s = .next
        { s with
          inputs := es
          responses := s.responses ++
            [{ host := s.curHost
               response :=
                { status := .ok
                  rdata := s.rbuf
                  id := some (b0 ++ b1 ++ b2 ++ b3 ++ b4 ++ b5 ++ b6 ++ b7)
                  vendorKgd := some (b0 ++ b1)
                  eid := some (b2 ++ b3 ++ b4 ++ b5 ++ b6 ++ b7) } }]
          lastStatus := .ok, busy := false, prog := [], upc := 0, rbuf := [], wbuf := [] })

/-- R164: read-id decoding: the vendor/KGD code is the identifier shifted right by 48, the EID the identifier modulo
2^48, and the two put together are the identifier. -/
def Obligations.ReadIdSplitsTheIdentifier : Prop :=
  ∀ id : BitVec 64,
    (vendorKgdOf id).toNat = id.toNat / 2 ^ 48 ∧ (eidOf id).toNat = id.toNat % 2 ^ 48 ∧
      vendorKgdOf id ++ eidOf id = id

/-- R31: the STATUS view as a number, its reserved bits 0, its value after reset, and a host's read of it at any time,
which sees it and changes nothing of the block. -/
def Obligations.StatusViewPacksAndReadsFreely : Prop :=
  (∀ s : State, s.statusView.toNat =
    (if s.wireMode = .qspi then 1 else 0) + (if s.pinCfg = .qspi then 2 else 0) + (if s.selActive then 4 else 0) +
      (if s.busy then 8 else 0) + 16 * s.selId.toNat + 256 * s.lastStatus.code.toNat ∧
    s.statusView.extractLsb' 11 5 = 0) ∧
  (∀ p : Params, (State.resetWith p).statusView = 0x0000) ∧
  (∀ (s : State) (h : Nat) (es : List Event), h < s.params.nHost → s.inputs = .readStatus h :: es →
    step s = .next
      { s with inputs := es, statusReads := s.statusReads ++ [{ host := h, value := s.statusView }] })

/-- R102, R260: with no event listed an idle block waits, and a busy one goes on with a free answer of the transport, or
a free report of the timer where `SETTLE` is due: the same step as with that answer listed. Nothing is known of the
free values (DESIGN CHOICE, log 5). -/
def Obligations.UnlistedAnswersAreFree : Prop :=
  ∀ s : State, s.inputs = [] →
    (s.busy = false → step s = .next s) ∧
    (s.busy = true → s.dueOp = some .settle →
      step s = step { s with inputs := [.timer (Config.freeWaitUs s.drawCount)], drawCount := s.drawCount + 1 }) ∧
    (s.busy = true → s.dueOp ≠ some .settle →
      step s = step { s with inputs := [.transport (Config.freeDraw s.drawCount)], drawCount := s.drawCount + 1 })

/-! ### Expansions as the tables give them -/

/-- R129: the length of every accepted expansion is that of the table. -/
def Obligations.ExpansionLengthsAreTheTables : Prop :=
  ∀ (i : Instr) (s t : State), s.busy = false → exec i s = .next t → t.busy = true →
    t.prog.length = programLength s.params i.code i.len

/-- R277: the SCLK cycles of every accepted expansion, all its frames together, are those of the table. -/
def Obligations.ExpansionSclkIsTheTables : Prop :=
  ∀ (i : Instr) (s t : State), s.busy = false → exec i s = .next t → t.busy = true →
    progSclk t.prog = commandSclk s.params i.code i.len

/-- R103 to R106, R85: the bit-level expansion of the wire trace of any list of micro-ops whose primitives all return
`Ok` is defined and has as many SCLK cycles as the micro-ops take. -/
def Obligations.WireTraceHasTheCyclesOfItsMicroOps : Prop :=
  ∀ (v : Nat → BitVec 32) (prog : List MicroOp),
    ∃ cycles, traceCycles (progWire v prog) = some cycles ∧ cycles.length = progSclk prog

/-- R81: in every accepted expansion the byte sent first after each selection is an opcode of the table, or the first
byte of the exit pattern. -/
def Obligations.FramesOpenWithTableOpcodes : Prop :=
  ∀ (i : Instr) (s t : State), s.params.wf = true → s.busy = false → exec i s = .next t → t.busy = true →
    ∀ (line : LineId) (before after : List MicroOp), t.prog = before ++ .sel line :: after →
      ∃ (b : Byte) (rest : List MicroOp), (after = .tx8 b :: rest ∨ after = .qtx b :: rest) ∧
        (b ∈ opcodeTable s.params ∨ s.params.exitSequence.head? = some b)

/-- R53, R82: the address phase is three bytes, most significant first, and loses no bit of the address. -/
def Obligations.AddressBytesAreBigEndian : Prop :=
  ∀ a : Addr, ∃ a2 a1 a0 : Byte, addrBytes a = [a2, a1, a0] ∧ a2 ++ a1 ++ a0 = a ∧
    a2.toNat = a.toNat / 65536 ∧ a1.toNat = a.toNat / 256 % 256 ∧ a0.toNat = a.toNat % 256

/-- R103, R104: `XB(b)` takes eight cycles, cycle `j` driving SIO0 with `b[7-j]`, sampling SIO1 into `r[7-j]` and driving
neither SIO2 nor SIO3; `XW(w)` is on the wire the same as four `XB`s of its bytes, the most significant first. -/
def Obligations.SpiBitsGoMostSignificantFirst : Prop :=
  (∀ b r : Byte, (xbCycles b r).length = 8 ∧
    ∀ j : Nat, j < 8 → ∃ c, (xbCycles b r)[j]? = some c ∧
      c.sio0.out = some (b.toNat.testBit (7 - j)) ∧ c.sio1.inp = some (r.toNat.testBit (7 - j)) ∧
      c.sio2.out = none ∧ c.sio3.out = none) ∧
  (∀ w r : BitVec 32, xwCycles w r =
    xbCycles (w.extractLsb' 24 8) (r.extractLsb' 24 8) ++ xbCycles (w.extractLsb' 16 8) (r.extractLsb' 16 8) ++
      xbCycles (w.extractLsb' 8 8) (r.extractLsb' 8 8) ++ xbCycles (w.extractLsb' 0 8) (r.extractLsb' 0 8))

/-- R105, R106: `WNP(b)` drives SIOk with `b[4+k]` and then with `b[k]`; `RNP()` drives no line and samples SIOk into
`r[4+k]` and then into `r[k]`. -/
def Obligations.NibblePairsGoUpperFirst : Prop :=
  (∀ b : Byte, ∃ hi lo : Cycle, wnpCycles b = [hi, lo] ∧
    hi.sio3.out = some (b.toNat.testBit 7) ∧ hi.sio2.out = some (b.toNat.testBit 6) ∧
    hi.sio1.out = some (b.toNat.testBit 5) ∧ hi.sio0.out = some (b.toNat.testBit 4) ∧
    lo.sio3.out = some (b.toNat.testBit 3) ∧ lo.sio2.out = some (b.toNat.testBit 2) ∧
    lo.sio1.out = some (b.toNat.testBit 1) ∧ lo.sio0.out = some (b.toNat.testBit 0)) ∧
  (∀ r : Byte, ∃ hi lo : Cycle, rnpCycles r = [hi, lo] ∧
    hi.sio3.inp = some (r.toNat.testBit 7) ∧ hi.sio2.inp = some (r.toNat.testBit 6) ∧
    hi.sio1.inp = some (r.toNat.testBit 5) ∧ hi.sio0.inp = some (r.toNat.testBit 4) ∧
    lo.sio3.inp = some (r.toNat.testBit 3) ∧ lo.sio2.inp = some (r.toNat.testBit 2) ∧
    lo.sio1.inp = some (r.toNat.testBit 1) ∧ lo.sio0.inp = some (r.toNat.testBit 0))

/-- R64, R118, R148, R269: in every state with the invariants, when `UNSEL` or `PINS` is due no output is in flight, and
when `PINS`, `MODE` or `SETTLE` is due every line is high. This is about micro-ops: the error recovery raises the held
line and sets the pins with no drain (R236, R269). What the transport's queue holds is the model's reading, DEDUCED,
log 12. -/
def Obligations.UnselAndPinsAreDueOnlyAfterTheDrain : Prop :=
  ∀ s : State, Inv s → s.busy = true →
    (∀ i, s.dueOp = some (.unsel i) → s.inFlight = []) ∧
    (∀ m, s.dueOp = some (.pins m) → s.inFlight = [] ∧ ∀ b ∈ s.csN, b = true) ∧
    (∀ m, s.dueOp = some (.mode m) → s.pinCfg = m ∧ ∀ b ∈ s.csN, b = true) ∧
    (s.dueOp = some .settle → ∀ b ∈ s.csN, b = true)

/-! ### Whole runs -/

/-- R123 to R125: from a state with the invariants in which a command has just been accepted, with every primitive
answered `Ok`, the whole expansion runs in its order, one step a micro-op and one for completion: the wire carries what
its micro-ops put there, the host gets the bytes they read, and the block ends idle with every line high. (`inFlight` is the model's reading of the
transport's queue, DEDUCED, log 12.) -/
def Obligations.AcceptedExpansionRunsToCompletion : Prop :=
  ∀ (s : State) (v : Nat → BitVec 32) (es : List Event), Inv s → s.busy = true → s.upc = 0 → s.rbuf = [] →
    s.inputs = answerEvents s.params (okDraws v) s.prog ++ es →
    ∃ t r, runSteps (s.prog.length + 1) s = .next t ∧ t.inputs = es ∧
      t.wire = s.wire ++ progWire v s.prog ∧
      r.status = .ok ∧ r.rdata = progReads v s.prog ∧ r.rdata.length = bytesWanted s.curCmd s.curLen ∧
      t.responses = s.responses ++ [{ host := s.curHost, response := r }] ∧
      t.lastStatus = .ok ∧ t.busy = false ∧ t.selActive = false ∧ (∀ b ∈ t.csN, b = true) ∧
      t.pinCfg = t.wireMode ∧ t.prog = [] ∧ t.upc = 0 ∧ t.inFlight = []

/-- R129: every accepted command ends, whatever the transport answers, within as many steps as its expansion has
micro-ops left and one more, with exactly one response to its host, and leaves every line high. (The events until then
are answers alone, with no other host's submission and no STATUS read between them; those are O13 and O39. `SETTLE` is
given the timer's report, as R110's fairness grants.) -/
def Obligations.EveryAcceptedCommandEnds : Prop :=
  ∀ (s : State) (d : Nat → Draw) (es : List Event), Inv s → s.busy = true →
    s.inputs = answerEvents s.params d (s.prog.drop s.upc) ++ es →
    ∃ n t r, n ≤ (s.prog.length - s.upc) + 1 ∧ runSteps n s = .next t ∧ t.busy = false ∧
      t.responses = s.responses ++ [{ host := s.curHost, response := r }] ∧ r.status = t.lastStatus ∧
      ∀ b ∈ t.csN, b = true

/-- R161, R162, R165: RSTEN, TGLBL and RST from submission to response, every primitive answered `Ok`: the opcode goes
out under the line and nothing is read. RST responds only after the timer has reported the minimum wait: after any
reports that are all shorter its `SETTLE` is still due and no response has been given. Everything the equations do not
name is as it was. (That a report carries the time waited is the model's form, DEDUCED, log 8.) -/
def Obligations.ControlCommandsSendTheirOpcode : Prop :=
  ∀ (s : State) (h : Nat) (wd : List Byte) (cs : LineId) (a : Addr) (l : Len) (x0 x1 x2 x3 x4 : BitVec 32) (us : Nat)
    (es : List Event),
    Inv s → s.busy = false → s.wireMode = .spi → h < s.params.nHost → cs.toNat < s.params.nCs →
    (s.inputs = .submit h (encode (.rsten cs a l)) wd :: ([x0, x1, x2, x3, x4].map okEvent ++ es) →
      runSteps 6 s = .next (s.afterCommand (.rsten cs a l) h wd cs
        [.csFall cs, .xb 0x66 (x1.setWidth 8), .csRise cs] (plainResponse .ok []) es)) ∧
    (s.inputs = .submit h (encode (.tglbl cs a l)) wd :: ([x0, x1, x2, x3, x4].map okEvent ++ es) →
      runSteps 6 s = .next (s.afterCommand (.tglbl cs a l) h wd cs
        [.csFall cs, .xb 0xC0 (x1.setWidth 8), .csRise cs] (plainResponse .ok []) es)) ∧
    (s.inputs = .submit h (encode (.rst cs a l)) wd ::
        ([x0, x1, x2, x3].map okEvent ++ [.timer us, okEvent x4] ++ es) →
      s.params.resetSettleMinUs ≤ us →
      runSteps 7 s = .next (s.afterCommand (.rst cs a l) h wd cs
        [.csFall cs, .xb 0x99 (x1.setWidth 8), .csRise cs] (plainResponse .ok []) es)) ∧
    (∀ reports : List Nat,
      s.inputs = .submit h (encode (.rst cs a l)) wd :: ([x0, x1, x2, x3].map okEvent ++ reports.map .timer ++ es) →
      (∀ r ∈ reports, r < s.params.resetSettleMinUs) →
      ∃ t, runSteps (5 + reports.length) s = .next t ∧ t.inputs = es ∧ t.busy = true ∧ t.curHost = h ∧
        t.dueOp = some .settle ∧ t.responses = s.responses)

/-- R163, R164, R56: RDID from submission to response: opcode, the pad bytes, two 32-bit reads. The identifier is the two
words, the first the upper half; its top 16 bits are the vendor/KGD code, the other 48 the EID; `rdata` is its eight
bytes. -/
def Obligations.ReadIdReturnsTheIdentifier : Prop :=
  ∀ (s : State) (h : Nat) (wd : List Byte) (cs : LineId) (a : Addr) (l : Len) (x0 x1 hi lo y0 y1 y2 : BitVec 32)
    (pads : List (BitVec 32)) (es : List Event),
    Inv s → s.busy = false → s.wireMode = .spi → h < s.params.nHost → cs.toNat < s.params.nCs →
    pads.length = s.params.readIdPadBytes →
    s.inputs = .submit h (encode (.rdid cs a l)) wd ::
      ([x0, x1].map okEvent ++ pads.map okEvent ++ [hi, lo, y0, y1, y2].map okEvent ++ es) →
    runSteps (8 + s.params.readIdPadBytes) s = .next (s.afterCommand (.rdid cs a l) h wd cs
      ([.csFall cs, .xb 0x9F (x1.setWidth 8)] ++ pads.map (fun x => .xb 0x00 (x.setWidth 8)) ++
        [.xw 0x00000000 hi, .xw 0x00000000 lo, .csRise cs])
      { status := .ok
        rdata := wordBytes hi ++ wordBytes lo
        id := some (hi ++ lo)
        vendorKgd := some (hi.extractLsb' 16 16)
        eid := some (hi.extractLsb' 0 16 ++ lo) } es)

/-- R166: FRD from submission to response: opcode, address and one filler byte go out, and the bytes shifted in after
them, one a read micro-op, are the response's `rdata` in their order. -/
def Obligations.FastReadSpiReturnsTheBytesReceived : Prop :=
  ∀ (s : State) (h : Nat) (wd : List Byte) (cs : LineId) (a : Addr) (l : Len)
    (x0 x1 x2 x3 x4 x5 y0 y1 y2 : BitVec 32) (vs : List (BitVec 32)) (es : List Event),
    Inv s → s.busy = false → s.wireMode = .spi → h < s.params.nHost → cs.toNat < s.params.nCs →
    l.toNat ≤ s.params.maxLen.toNat → vs.length = l.toNat →
    s.inputs = .submit h (encode (.frd cs a l)) wd ::
      ([x0, x1, x2, x3, x4, x5].map okEvent ++ vs.map okEvent ++ [y0, y1, y2].map okEvent ++ es) →
    runSteps (10 + l.toNat) s = .next (s.afterCommand (.frd cs a l) h wd cs
      ([.csFall cs, .xb 0x0B (x1.setWidth 8), .xb (a.extractLsb' 16 8) (x2.setWidth 8),
        .xb (a.extractLsb' 8 8) (x3.setWidth 8), .xb (a.extractLsb' 0 8) (x4.setWidth 8), .xb 0x00 (x5.setWidth 8)] ++
        vs.map (fun x => .xb 0x00 (x.setWidth 8)) ++ [.csRise cs])
      (plainResponse .ok (vs.map fun x => x.setWidth 8)) es)

/-- R167: FWR from submission to response: opcode and address go out, then the write data in its order; what is shifted
in is discarded. `vs` pairs each data byte with the value shifted in beside it. -/
def Obligations.FastWriteSpiSendsTheWriteData : Prop :=
  ∀ (s : State) (h : Nat) (cs : LineId) (a : Addr) (l : Len) (x0 x1 x2 x3 x4 y0 y1 y2 : BitVec 32)
    (vs : List (Byte × BitVec 32)) (es : List Event),
    Inv s → s.busy = false → s.wireMode = .spi → h < s.params.nHost → cs.toNat < s.params.nCs →
    l.toNat ≤ s.params.maxLen.toNat → vs.length = l.toNat →
    s.inputs = .submit h (encode (.fwr cs a l)) (vs.map Prod.fst) ::
      ([x0, x1, x2, x3, x4].map okEvent ++ vs.map (fun x => okEvent x.2) ++ [y0, y1, y2].map okEvent ++ es) →
    runSteps (9 + l.toNat) s = .next (s.afterCommand (.fwr cs a l) h (vs.map Prod.fst) cs
      ([.csFall cs, .xb 0x02 (x1.setWidth 8), .xb (a.extractLsb' 16 8) (x2.setWidth 8),
        .xb (a.extractLsb' 8 8) (x3.setWidth 8), .xb (a.extractLsb' 0 8) (x4.setWidth 8)] ++
        vs.map (fun x => .xb x.1 (x.2.setWidth 8)) ++ [.csRise cs])
      (plainResponse .ok []) es)

/-- R168: QFRD from submission to response: opcode and address as nibble pairs, three discarded reads for the six dummy
clocks, then the bytes read, which are the response's `rdata`. -/
def Obligations.FastReadQspiReturnsTheBytesReceived : Prop :=
  ∀ (s : State) (h : Nat) (wd : List Byte) (cs : LineId) (a : Addr) (l : Len)
    (x0 x1 x2 x3 x4 k0 k1 k2 y0 y1 y2 : BitVec 32) (vs : List (BitVec 32)) (es : List Event),
    Inv s → s.busy = false → s.wireMode = .qspi → h < s.params.nHost → cs.toNat < s.params.nCs →
    l.toNat ≤ s.params.maxLen.toNat → vs.length = l.toNat →
    s.inputs = .submit h (encode (.qfrd cs a l)) wd ::
      ([x0, x1, x2, x3, x4, k0, k1, k2].map okEvent ++ vs.map okEvent ++ [y0, y1, y2].map okEvent ++ es) →
    runSteps (12 + l.toNat) s = .next (s.afterCommand (.qfrd cs a l) h wd cs
      ([.csFall cs, .wnp 0xEB, .wnp (a.extractLsb' 16 8), .wnp (a.extractLsb' 8 8), .wnp (a.extractLsb' 0 8),
        .rnp (k0.setWidth 8), .rnp (k1.setWidth 8), .rnp (k2.setWidth 8)] ++
        vs.map (fun x => .rnp (x.setWidth 8)) ++ [.csRise cs])
      (plainResponse .ok (vs.map fun x => x.setWidth 8)) es)

/-- R169: QFWR from submission to response: the write opcode the block was built with, the address and the write data, as
nibble pairs. -/
def Obligations.FastWriteQspiSendsTheWriteData : Prop :=
  ∀ (s : State) (h : Nat) (cs : LineId) (a : Addr) (l : Len) (x0 x1 x2 x3 x4 y0 y1 y2 : BitVec 32)
    (vs : List (Byte × BitVec 32)) (es : List Event),
    Inv s → s.busy = false → s.wireMode = .qspi → h < s.params.nHost → cs.toNat < s.params.nCs →
    l.toNat ≤ s.params.maxLen.toNat → vs.length = l.toNat →
    s.inputs = .submit h (encode (.qfwr cs a l)) (vs.map Prod.fst) ::
      ([x0, x1, x2, x3, x4].map okEvent ++ vs.map (fun x => okEvent x.2) ++ [y0, y1, y2].map okEvent ++ es) →
    runSteps (9 + l.toNat) s = .next (s.afterCommand (.qfwr cs a l) h (vs.map Prod.fst) cs
      ([.csFall cs, .wnp s.params.qspiWriteOpcode, .wnp (a.extractLsb' 16 8), .wnp (a.extractLsb' 8 8),
        .wnp (a.extractLsb' 0 8)] ++ vs.map (fun x => .wnp x.1) ++ [.csRise cs])
      (plainResponse .ok []) es)

/-- R202, R203: QEN from submission to response: `0x35` under each line in ascending order, then the pins; at the end
pins and mode are QSPI, no line is held and the status is `OK`. `v i` is what line `i`'s frame shifts in. -/
def Obligations.EnterQspiReachesEveryLine : Prop :=
  ∀ (s : State) (h : Nat) (wd : List Byte) (cs : LineId) (a : Addr) (l : Len) (x : BitVec 32) (v : LineId → BitVec 32)
    (es : List Event),
    Inv s → s.busy = false → s.wireMode = .spi → h < s.params.nHost →
    s.inputs = .submit h (encode (.qen cs a l)) wd ::
      ((allLines s.params).flatMap (fun i => [x, v i, x, x].map okEvent) ++ [x, x, x].map okEvent ++ es) →
    runSteps (4 * s.params.nCs + 4) s = .next
      { s.afterCommand (.qen cs a l) h wd (BitVec.ofNat 4 (s.params.nCs - 1))
          ((allLines s.params).flatMap (fun i => [.csFall i, .xb 0x35 ((v i).setWidth 8), .csRise i]) ++
            [.setPins .qspi]) (plainResponse .ok []) es with
        wireMode := .qspi
        pinCfg := .qspi }

/-- R205, R206: QEX from submission to response: the exit pattern under each line in ascending order, then the pins; at
the end pins and mode are SPI, no line is held and the status is `OK`. -/
def Obligations.ExitQspiReachesEveryLine : Prop :=
  ∀ (s : State) (h : Nat) (wd : List Byte) (cs : LineId) (a : Addr) (l : Len) (x : BitVec 32) (es : List Event),
    Inv s → s.busy = false → s.wireMode = .qspi → h < s.params.nHost →
    s.inputs = .submit h (encode (.qex cs a l)) wd ::
      (List.replicate ((3 + s.params.exitSequence.length) * s.params.nCs + 3) (okEvent x) ++ es) →
    runSteps ((3 + s.params.exitSequence.length) * s.params.nCs + 4) s = .next
      { s.afterCommand (.qex cs a l) h wd (BitVec.ofNat 4 (s.params.nCs - 1))
          ((allLines s.params).flatMap
            (fun i => [.csFall i] ++ s.params.exitSequence.map .wnp ++ [.csRise i]) ++ [.setPins .spi])
          (plainResponse .ok []) es with
        wireMode := .spi
        pinCfg := .spi }

/-! ### The round trip over the ideal device (a fixture, no part of the block) -/

/-- R58, under SPI: over the ideal-device fixture of 95_test_vectors section 1, the premise R58 asks for, a fast-write
and then a fast-read at the same line, address and length end `OK` and the read returns the bytes written. -/
def Obligations.RoundTripUnderSpi : Prop :=
  ∀ (b : Bench) (h : Nat) (cs : LineId) (a : Addr) (l : Len) (data : List Byte) (dev : Device),
    Inv b.blk → b.blk.busy = false → b.blk.wireMode = .spi → h < b.blk.params.nHost →
    cs.toNat < b.blk.params.nCs → l.toNat ≤ b.blk.params.maxLen.toNat → data.length = l.toNat →
    data.length ≤ arraySize → b.devs[cs.toNat]? = some dev → dev.known = true → dev.mode = .spi →
    Memory.wf dev.mem = true → b.inject = none →
    b.script = [.submit h (encode (.fwr cs a l)) data, .submit h (encode (.frd cs a l)) []] →
    ∃ b', Bench.run (19 + 2 * l.toNat) b = .next b' ∧ b'.blk.busy = false ∧
      b'.blk.responses = b.blk.responses ++
        [{ host := h, response := plainResponse .ok [] }, { host := h, response := plainResponse .ok data }]

/-- R58, under QSPI: the same of QFWR and QFRD, over a device in QSPI mode whose exit pattern does not begin with the
write opcode (the fixture would take such a write frame for an exit frame). -/
def Obligations.RoundTripUnderQspi : Prop :=
  ∀ (b : Bench) (h : Nat) (cs : LineId) (a : Addr) (l : Len) (data : List Byte) (dev : Device),
    Inv b.blk → b.blk.busy = false → b.blk.wireMode = .qspi → h < b.blk.params.nHost →
    cs.toNat < b.blk.params.nCs → l.toNat ≤ b.blk.params.maxLen.toNat → data.length = l.toNat →
    data.length ≤ arraySize → b.devs[cs.toNat]? = some dev → dev.known = true → dev.mode = .qspi →
    Memory.wf dev.mem = true → b.inject = none →
    b.blk.params.exitSequence.head? ≠ some b.blk.params.qspiWriteOpcode →
    b.script = [.submit h (encode (.qfwr cs a l)) data, .submit h (encode (.qfrd cs a l)) []] →
    ∃ b', Bench.run (21 + 2 * l.toNat) b = .next b' ∧ b'.blk.busy = false ∧
      b'.blk.responses = b.blk.responses ++
        [{ host := h, response := plainResponse .ok [] }, { host := h, response := plainResponse .ok data }]
end

