-- ==== Sys2Proof/Laws/Decode.lean ====
section
/-! SUPPORT. The command word as a number: what packing makes and what each field reads (30_encoding R71, R86). -/

namespace Sys2Proof

/-- Putting a field above another is adding its shifted value. -/
theorem toNat_append_eq {n m : Nat} (x : BitVec n) (y : BitVec m) : (x ++ y).toNat = x.toNat * 2 ^ m + y.toNat := by
  rw [BitVec.toNat_append, ← Nat.shiftLeft_add_eq_or_of_lt y.isLt, Nat.shiftLeft_eq]

/-- The packed word as a number (R86). -/
theorem packWord_toNat (c : CmdCode) (cs : LineId) (addr : Addr) (len : Len) :
    (packWord c cs addr len).toNat = len.toNat * 2 ^ 32 + addr.toNat * 2 ^ 8 + cs.toNat * 16 + c.toNat := by
  unfold packWord
  rw [toNat_append_eq, toNat_append_eq, toNat_append_eq]
  omega

theorem fieldCmd_toNat (w : CmdWord) : (fieldCmd w).toNat = w.toNat % 16 := by
  simp [fieldCmd]

theorem fieldCs_toNat (w : CmdWord) : (fieldCs w).toNat = w.toNat / 16 % 16 := by
  simp [fieldCs, BitVec.extractLsb'_toNat, Nat.shiftRight_eq_div_pow]

theorem fieldAddr_toNat (w : CmdWord) : (fieldAddr w).toNat = w.toNat / 256 % 2 ^ 24 := by
  simp [fieldAddr, BitVec.extractLsb'_toNat, Nat.shiftRight_eq_div_pow]

theorem fieldLen_toNat (w : CmdWord) : (fieldLen w).toNat = w.toNat / 2 ^ 32 := by
  simp only [fieldLen, BitVec.extractLsb'_toNat, Nat.shiftRight_eq_div_pow]
  have := w.isLt
  omega

@[simp] theorem fieldCmd_packWord (c : CmdCode) (cs : LineId) (addr : Addr) (len : Len) :
    fieldCmd (packWord c cs addr len) = c := by
  apply BitVec.eq_of_toNat_eq
  rw [fieldCmd_toNat, packWord_toNat]
  omega

@[simp] theorem fieldCs_packWord (c : CmdCode) (cs : LineId) (addr : Addr) (len : Len) :
    fieldCs (packWord c cs addr len) = cs := by
  apply BitVec.eq_of_toNat_eq
  rw [fieldCs_toNat, packWord_toNat]
  omega

@[simp] theorem fieldAddr_packWord (c : CmdCode) (cs : LineId) (addr : Addr) (len : Len) :
    fieldAddr (packWord c cs addr len) = addr := by
  apply BitVec.eq_of_toNat_eq
  rw [fieldAddr_toNat, packWord_toNat]
  omega

@[simp] theorem fieldLen_packWord (c : CmdCode) (cs : LineId) (addr : Addr) (len : Len) :
    fieldLen (packWord c cs addr len) = len := by
  apply BitVec.eq_of_toNat_eq
  rw [fieldLen_toNat, packWord_toNat]
  omega

end Sys2Proof
end

