-- ==== Sys2Proof/Laws/State.lean ====
section
/-! SUPPORT. What each named update of the state leaves in each field: one lemma per field per update, true by rfl, so
that no proof unfolds a record update. -/

namespace Sys2Proof.Machine

section
variable (s : State) (h : Nat) (r : Response)

@[simp] theorem State.respond_params : (s.respond h r).params = s.params := rfl
@[simp] theorem State.respond_wireMode : (s.respond h r).wireMode = s.wireMode := rfl
@[simp] theorem State.respond_pinCfg : (s.respond h r).pinCfg = s.pinCfg := rfl
@[simp] theorem State.respond_selActive : (s.respond h r).selActive = s.selActive := rfl
@[simp] theorem State.respond_selId : (s.respond h r).selId = s.selId := rfl
@[simp] theorem State.respond_csN : (s.respond h r).csN = s.csN := rfl
@[simp] theorem State.respond_busy : (s.respond h r).busy = s.busy := rfl
@[simp] theorem State.respond_prog : (s.respond h r).prog = s.prog := rfl
@[simp] theorem State.respond_upc : (s.respond h r).upc = s.upc := rfl
@[simp] theorem State.respond_curHost : (s.respond h r).curHost = s.curHost := rfl
@[simp] theorem State.respond_curCmd : (s.respond h r).curCmd = s.curCmd := rfl
@[simp] theorem State.respond_curCs : (s.respond h r).curCs = s.curCs := rfl
@[simp] theorem State.respond_curAddr : (s.respond h r).curAddr = s.curAddr := rfl
@[simp] theorem State.respond_curLen : (s.respond h r).curLen = s.curLen := rfl
@[simp] theorem State.respond_wbuf : (s.respond h r).wbuf = s.wbuf := rfl
@[simp] theorem State.respond_rbuf : (s.respond h r).rbuf = s.rbuf := rfl
@[simp] theorem State.respond_lastStatus : (s.respond h r).lastStatus = s.lastStatus := rfl
@[simp] theorem State.respond_inFlight : (s.respond h r).inFlight = s.inFlight := rfl
@[simp] theorem State.respond_port : (s.respond h r).port = s.port := rfl
@[simp] theorem State.respond_inputs : (s.respond h r).inputs = s.inputs := rfl
@[simp] theorem State.respond_drawCount : (s.respond h r).drawCount = s.drawCount := rfl
@[simp] theorem State.respond_wire : (s.respond h r).wire = s.wire := rfl
@[simp] theorem State.respond_responses : (s.respond h r).responses = s.responses ++ [{ host := h, response := r }] := rfl
@[simp] theorem State.respond_statusReads : (s.respond h r).statusReads = s.statusReads := rfl

end

section
variable (s : State)

@[simp] theorem State.advance_params : (s.advance).params = s.params := rfl
@[simp] theorem State.advance_wireMode : (s.advance).wireMode = s.wireMode := rfl
@[simp] theorem State.advance_pinCfg : (s.advance).pinCfg = s.pinCfg := rfl
@[simp] theorem State.advance_selActive : (s.advance).selActive = s.selActive := rfl
@[simp] theorem State.advance_selId : (s.advance).selId = s.selId := rfl
@[simp] theorem State.advance_csN : (s.advance).csN = s.csN := rfl
@[simp] theorem State.advance_busy : (s.advance).busy = s.busy := rfl
@[simp] theorem State.advance_prog : (s.advance).prog = s.prog := rfl
@[simp] theorem State.advance_upc : (s.advance).upc = s.upc + 1 := rfl
@[simp] theorem State.advance_curHost : (s.advance).curHost = s.curHost := rfl
@[simp] theorem State.advance_curCmd : (s.advance).curCmd = s.curCmd := rfl
@[simp] theorem State.advance_curCs : (s.advance).curCs = s.curCs := rfl
@[simp] theorem State.advance_curAddr : (s.advance).curAddr = s.curAddr := rfl
@[simp] theorem State.advance_curLen : (s.advance).curLen = s.curLen := rfl
@[simp] theorem State.advance_wbuf : (s.advance).wbuf = s.wbuf := rfl
@[simp] theorem State.advance_rbuf : (s.advance).rbuf = s.rbuf := rfl
@[simp] theorem State.advance_lastStatus : (s.advance).lastStatus = s.lastStatus := rfl
@[simp] theorem State.advance_inFlight : (s.advance).inFlight = s.inFlight := rfl
@[simp] theorem State.advance_port : (s.advance).port = s.port := rfl
@[simp] theorem State.advance_inputs : (s.advance).inputs = s.inputs := rfl
@[simp] theorem State.advance_drawCount : (s.advance).drawCount = s.drawCount := rfl
@[simp] theorem State.advance_wire : (s.advance).wire = s.wire := rfl
@[simp] theorem State.advance_responses : (s.advance).responses = s.responses := rfl
@[simp] theorem State.advance_statusReads : (s.advance).statusReads = s.statusReads := rfl

end

section
variable (s : State) (i : LineId)

@[simp] theorem State.select_params : (s.select i).params = s.params := rfl
@[simp] theorem State.select_wireMode : (s.select i).wireMode = s.wireMode := rfl
@[simp] theorem State.select_pinCfg : (s.select i).pinCfg = s.pinCfg := rfl
@[simp] theorem State.select_selActive : (s.select i).selActive = true := rfl
@[simp] theorem State.select_selId : (s.select i).selId = i := rfl
@[simp] theorem State.select_csN : (s.select i).csN = s.csN.set i.toNat false := rfl
@[simp] theorem State.select_busy : (s.select i).busy = s.busy := rfl
@[simp] theorem State.select_prog : (s.select i).prog = s.prog := rfl
@[simp] theorem State.select_upc : (s.select i).upc = s.upc := rfl
@[simp] theorem State.select_curHost : (s.select i).curHost = s.curHost := rfl
@[simp] theorem State.select_curCmd : (s.select i).curCmd = s.curCmd := rfl
@[simp] theorem State.select_curCs : (s.select i).curCs = s.curCs := rfl
@[simp] theorem State.select_curAddr : (s.select i).curAddr = s.curAddr := rfl
@[simp] theorem State.select_curLen : (s.select i).curLen = s.curLen := rfl
@[simp] theorem State.select_wbuf : (s.select i).wbuf = s.wbuf := rfl
@[simp] theorem State.select_rbuf : (s.select i).rbuf = s.rbuf := rfl
@[simp] theorem State.select_lastStatus : (s.select i).lastStatus = s.lastStatus := rfl
@[simp] theorem State.select_inFlight : (s.select i).inFlight = s.inFlight := rfl
@[simp] theorem State.select_port : (s.select i).port = s.port := rfl
@[simp] theorem State.select_inputs : (s.select i).inputs = s.inputs := rfl
@[simp] theorem State.select_drawCount : (s.select i).drawCount = s.drawCount := rfl
@[simp] theorem State.select_wire : (s.select i).wire = s.wire ++ [.csFall i] := rfl
@[simp] theorem State.select_responses : (s.select i).responses = s.responses := rfl
@[simp] theorem State.select_statusReads : (s.select i).statusReads = s.statusReads := rfl

end

section
variable (s : State) (i : LineId)

@[simp] theorem State.release_params : (s.release i).params = s.params := rfl
@[simp] theorem State.release_wireMode : (s.release i).wireMode = s.wireMode := rfl
@[simp] theorem State.release_pinCfg : (s.release i).pinCfg = s.pinCfg := rfl
@[simp] theorem State.release_selActive : (s.release i).selActive = false := rfl
@[simp] theorem State.release_selId : (s.release i).selId = s.selId := rfl
@[simp] theorem State.release_csN : (s.release i).csN = s.csN.set i.toNat true := rfl
@[simp] theorem State.release_busy : (s.release i).busy = s.busy := rfl
@[simp] theorem State.release_prog : (s.release i).prog = s.prog := rfl
@[simp] theorem State.release_upc : (s.release i).upc = s.upc := rfl
@[simp] theorem State.release_curHost : (s.release i).curHost = s.curHost := rfl
@[simp] theorem State.release_curCmd : (s.release i).curCmd = s.curCmd := rfl
@[simp] theorem State.release_curCs : (s.release i).curCs = s.curCs := rfl
@[simp] theorem State.release_curAddr : (s.release i).curAddr = s.curAddr := rfl
@[simp] theorem State.release_curLen : (s.release i).curLen = s.curLen := rfl
@[simp] theorem State.release_wbuf : (s.release i).wbuf = s.wbuf := rfl
@[simp] theorem State.release_rbuf : (s.release i).rbuf = s.rbuf := rfl
@[simp] theorem State.release_lastStatus : (s.release i).lastStatus = s.lastStatus := rfl
@[simp] theorem State.release_inFlight : (s.release i).inFlight = s.inFlight := rfl
@[simp] theorem State.release_port : (s.release i).port = s.port := rfl
@[simp] theorem State.release_inputs : (s.release i).inputs = s.inputs := rfl
@[simp] theorem State.release_drawCount : (s.release i).drawCount = s.drawCount := rfl
@[simp] theorem State.release_wire : (s.release i).wire = s.wire ++ [.csRise i] := rfl
@[simp] theorem State.release_responses : (s.release i).responses = s.responses := rfl
@[simp] theorem State.release_statusReads : (s.release i).statusReads = s.statusReads := rfl

end

section
variable (s : State) (p : Primitive) (v : BitVec 32)

@[simp] theorem State.transferred_params : (s.transferred p v).params = s.params := rfl
@[simp] theorem State.transferred_wireMode : (s.transferred p v).wireMode = s.wireMode := rfl
@[simp] theorem State.transferred_pinCfg : (s.transferred p v).pinCfg = s.pinCfg := rfl
@[simp] theorem State.transferred_selActive : (s.transferred p v).selActive = s.selActive := rfl
@[simp] theorem State.transferred_selId : (s.transferred p v).selId = s.selId := rfl
@[simp] theorem State.transferred_csN : (s.transferred p v).csN = s.csN := rfl
@[simp] theorem State.transferred_busy : (s.transferred p v).busy = s.busy := rfl
@[simp] theorem State.transferred_prog : (s.transferred p v).prog = s.prog := rfl
@[simp] theorem State.transferred_upc : (s.transferred p v).upc = s.upc := rfl
@[simp] theorem State.transferred_curHost : (s.transferred p v).curHost = s.curHost := rfl
@[simp] theorem State.transferred_curCmd : (s.transferred p v).curCmd = s.curCmd := rfl
@[simp] theorem State.transferred_curCs : (s.transferred p v).curCs = s.curCs := rfl
@[simp] theorem State.transferred_curAddr : (s.transferred p v).curAddr = s.curAddr := rfl
@[simp] theorem State.transferred_curLen : (s.transferred p v).curLen = s.curLen := rfl
@[simp] theorem State.transferred_wbuf : (s.transferred p v).wbuf = s.wbuf := rfl
@[simp] theorem State.transferred_rbuf : (s.transferred p v).rbuf = s.rbuf := rfl
@[simp] theorem State.transferred_lastStatus : (s.transferred p v).lastStatus = s.lastStatus := rfl
@[simp] theorem State.transferred_inFlight : (s.transferred p v).inFlight = queueAfter s.params.backend s.inFlight p := rfl
@[simp] theorem State.transferred_port : (s.transferred p v).port = s.port := rfl
@[simp] theorem State.transferred_inputs : (s.transferred p v).inputs = s.inputs := rfl
@[simp] theorem State.transferred_drawCount : (s.transferred p v).drawCount = s.drawCount := rfl
@[simp] theorem State.transferred_wire : (s.transferred p v).wire = s.wire ++ [p.event v] := rfl
@[simp] theorem State.transferred_responses : (s.transferred p v).responses = s.responses := rfl
@[simp] theorem State.transferred_statusReads : (s.transferred p v).statusReads = s.statusReads := rfl

end

section
variable (s : State) (bs : List Byte)

@[simp] theorem State.received_params : (s.received bs).params = s.params := rfl
@[simp] theorem State.received_wireMode : (s.received bs).wireMode = s.wireMode := rfl
@[simp] theorem State.received_pinCfg : (s.received bs).pinCfg = s.pinCfg := rfl
@[simp] theorem State.received_selActive : (s.received bs).selActive = s.selActive := rfl
@[simp] theorem State.received_selId : (s.received bs).selId = s.selId := rfl
@[simp] theorem State.received_csN : (s.received bs).csN = s.csN := rfl
@[simp] theorem State.received_busy : (s.received bs).busy = s.busy := rfl
@[simp] theorem State.received_prog : (s.received bs).prog = s.prog := rfl
@[simp] theorem State.received_upc : (s.received bs).upc = s.upc := rfl
@[simp] theorem State.received_curHost : (s.received bs).curHost = s.curHost := rfl
@[simp] theorem State.received_curCmd : (s.received bs).curCmd = s.curCmd := rfl
@[simp] theorem State.received_curCs : (s.received bs).curCs = s.curCs := rfl
@[simp] theorem State.received_curAddr : (s.received bs).curAddr = s.curAddr := rfl
@[simp] theorem State.received_curLen : (s.received bs).curLen = s.curLen := rfl
@[simp] theorem State.received_wbuf : (s.received bs).wbuf = s.wbuf := rfl
@[simp] theorem State.received_rbuf : (s.received bs).rbuf = s.rbuf ++ bs := rfl
@[simp] theorem State.received_lastStatus : (s.received bs).lastStatus = s.lastStatus := rfl
@[simp] theorem State.received_inFlight : (s.received bs).inFlight = s.inFlight := rfl
@[simp] theorem State.received_port : (s.received bs).port = s.port := rfl
@[simp] theorem State.received_inputs : (s.received bs).inputs = s.inputs := rfl
@[simp] theorem State.received_drawCount : (s.received bs).drawCount = s.drawCount := rfl
@[simp] theorem State.received_wire : (s.received bs).wire = s.wire := rfl
@[simp] theorem State.received_responses : (s.received bs).responses = s.responses := rfl
@[simp] theorem State.received_statusReads : (s.received bs).statusReads = s.statusReads := rfl

end

section
variable (s : State)

@[simp] theorem State.drained_params : (s.drained).params = s.params := rfl
@[simp] theorem State.drained_wireMode : (s.drained).wireMode = s.wireMode := rfl
@[simp] theorem State.drained_pinCfg : (s.drained).pinCfg = s.pinCfg := rfl
@[simp] theorem State.drained_selActive : (s.drained).selActive = s.selActive := rfl
@[simp] theorem State.drained_selId : (s.drained).selId = s.selId := rfl
@[simp] theorem State.drained_csN : (s.drained).csN = s.csN := rfl
@[simp] theorem State.drained_busy : (s.drained).busy = s.busy := rfl
@[simp] theorem State.drained_prog : (s.drained).prog = s.prog := rfl
@[simp] theorem State.drained_upc : (s.drained).upc = s.upc := rfl
@[simp] theorem State.drained_curHost : (s.drained).curHost = s.curHost := rfl
@[simp] theorem State.drained_curCmd : (s.drained).curCmd = s.curCmd := rfl
@[simp] theorem State.drained_curCs : (s.drained).curCs = s.curCs := rfl
@[simp] theorem State.drained_curAddr : (s.drained).curAddr = s.curAddr := rfl
@[simp] theorem State.drained_curLen : (s.drained).curLen = s.curLen := rfl
@[simp] theorem State.drained_wbuf : (s.drained).wbuf = s.wbuf := rfl
@[simp] theorem State.drained_rbuf : (s.drained).rbuf = s.rbuf := rfl
@[simp] theorem State.drained_lastStatus : (s.drained).lastStatus = s.lastStatus := rfl
@[simp] theorem State.drained_inFlight : (s.drained).inFlight = [] := rfl
@[simp] theorem State.drained_port : (s.drained).port = s.port := rfl
@[simp] theorem State.drained_inputs : (s.drained).inputs = s.inputs := rfl
@[simp] theorem State.drained_drawCount : (s.drained).drawCount = s.drawCount := rfl
@[simp] theorem State.drained_wire : (s.drained).wire = s.wire := rfl
@[simp] theorem State.drained_responses : (s.drained).responses = s.responses := rfl
@[simp] theorem State.drained_statusReads : (s.drained).statusReads = s.statusReads := rfl

end

section
variable (s : State) (m : WireMode)

@[simp] theorem State.setPins_params : (s.setPins m).params = s.params := rfl
@[simp] theorem State.setPins_wireMode : (s.setPins m).wireMode = s.wireMode := rfl
@[simp] theorem State.setPins_pinCfg : (s.setPins m).pinCfg = m := rfl
@[simp] theorem State.setPins_selActive : (s.setPins m).selActive = s.selActive := rfl
@[simp] theorem State.setPins_selId : (s.setPins m).selId = s.selId := rfl
@[simp] theorem State.setPins_csN : (s.setPins m).csN = s.csN := rfl
@[simp] theorem State.setPins_busy : (s.setPins m).busy = s.busy := rfl
@[simp] theorem State.setPins_prog : (s.setPins m).prog = s.prog := rfl
@[simp] theorem State.setPins_upc : (s.setPins m).upc = s.upc := rfl
@[simp] theorem State.setPins_curHost : (s.setPins m).curHost = s.curHost := rfl
@[simp] theorem State.setPins_curCmd : (s.setPins m).curCmd = s.curCmd := rfl
@[simp] theorem State.setPins_curCs : (s.setPins m).curCs = s.curCs := rfl
@[simp] theorem State.setPins_curAddr : (s.setPins m).curAddr = s.curAddr := rfl
@[simp] theorem State.setPins_curLen : (s.setPins m).curLen = s.curLen := rfl
@[simp] theorem State.setPins_wbuf : (s.setPins m).wbuf = s.wbuf := rfl
@[simp] theorem State.setPins_rbuf : (s.setPins m).rbuf = s.rbuf := rfl
@[simp] theorem State.setPins_lastStatus : (s.setPins m).lastStatus = s.lastStatus := rfl
@[simp] theorem State.setPins_inFlight : (s.setPins m).inFlight = s.inFlight := rfl
@[simp] theorem State.setPins_port : (s.setPins m).port = s.port := rfl
@[simp] theorem State.setPins_inputs : (s.setPins m).inputs = s.inputs := rfl
@[simp] theorem State.setPins_drawCount : (s.setPins m).drawCount = s.drawCount := rfl
@[simp] theorem State.setPins_wire : (s.setPins m).wire = s.wire ++ [.setPins m] := rfl
@[simp] theorem State.setPins_responses : (s.setPins m).responses = s.responses := rfl
@[simp] theorem State.setPins_statusReads : (s.setPins m).statusReads = s.statusReads := rfl

end

section
variable (s : State) (m : WireMode)

@[simp] theorem State.setMode_params : (s.setMode m).params = s.params := rfl
@[simp] theorem State.setMode_wireMode : (s.setMode m).wireMode = m := rfl
@[simp] theorem State.setMode_pinCfg : (s.setMode m).pinCfg = s.pinCfg := rfl
@[simp] theorem State.setMode_selActive : (s.setMode m).selActive = s.selActive := rfl
@[simp] theorem State.setMode_selId : (s.setMode m).selId = s.selId := rfl
@[simp] theorem State.setMode_csN : (s.setMode m).csN = s.csN := rfl
@[simp] theorem State.setMode_busy : (s.setMode m).busy = s.busy := rfl
@[simp] theorem State.setMode_prog : (s.setMode m).prog = s.prog := rfl
@[simp] theorem State.setMode_upc : (s.setMode m).upc = s.upc := rfl
@[simp] theorem State.setMode_curHost : (s.setMode m).curHost = s.curHost := rfl
@[simp] theorem State.setMode_curCmd : (s.setMode m).curCmd = s.curCmd := rfl
@[simp] theorem State.setMode_curCs : (s.setMode m).curCs = s.curCs := rfl
@[simp] theorem State.setMode_curAddr : (s.setMode m).curAddr = s.curAddr := rfl
@[simp] theorem State.setMode_curLen : (s.setMode m).curLen = s.curLen := rfl
@[simp] theorem State.setMode_wbuf : (s.setMode m).wbuf = s.wbuf := rfl
@[simp] theorem State.setMode_rbuf : (s.setMode m).rbuf = s.rbuf := rfl
@[simp] theorem State.setMode_lastStatus : (s.setMode m).lastStatus = s.lastStatus := rfl
@[simp] theorem State.setMode_inFlight : (s.setMode m).inFlight = s.inFlight := rfl
@[simp] theorem State.setMode_port : (s.setMode m).port = s.port := rfl
@[simp] theorem State.setMode_inputs : (s.setMode m).inputs = s.inputs := rfl
@[simp] theorem State.setMode_drawCount : (s.setMode m).drawCount = s.drawCount := rfl
@[simp] theorem State.setMode_wire : (s.setMode m).wire = s.wire := rfl
@[simp] theorem State.setMode_responses : (s.setMode m).responses = s.responses := rfl
@[simp] theorem State.setMode_statusReads : (s.setMode m).statusReads = s.statusReads := rfl

end

section
variable (s : State) (p : Primitive)

@[simp] theorem State.brokenOff_params : (s.brokenOff p).params = s.params := rfl
@[simp] theorem State.brokenOff_wireMode : (s.brokenOff p).wireMode = s.wireMode := rfl
@[simp] theorem State.brokenOff_pinCfg : (s.brokenOff p).pinCfg = s.pinCfg := rfl
@[simp] theorem State.brokenOff_selActive : (s.brokenOff p).selActive = s.selActive := rfl
@[simp] theorem State.brokenOff_selId : (s.brokenOff p).selId = s.selId := rfl
@[simp] theorem State.brokenOff_csN : (s.brokenOff p).csN = s.csN := rfl
@[simp] theorem State.brokenOff_busy : (s.brokenOff p).busy = s.busy := rfl
@[simp] theorem State.brokenOff_prog : (s.brokenOff p).prog = s.prog := rfl
@[simp] theorem State.brokenOff_upc : (s.brokenOff p).upc = s.upc := rfl
@[simp] theorem State.brokenOff_curHost : (s.brokenOff p).curHost = s.curHost := rfl
@[simp] theorem State.brokenOff_curCmd : (s.brokenOff p).curCmd = s.curCmd := rfl
@[simp] theorem State.brokenOff_curCs : (s.brokenOff p).curCs = s.curCs := rfl
@[simp] theorem State.brokenOff_curAddr : (s.brokenOff p).curAddr = s.curAddr := rfl
@[simp] theorem State.brokenOff_curLen : (s.brokenOff p).curLen = s.curLen := rfl
@[simp] theorem State.brokenOff_wbuf : (s.brokenOff p).wbuf = s.wbuf := rfl
@[simp] theorem State.brokenOff_rbuf : (s.brokenOff p).rbuf = s.rbuf := rfl
@[simp] theorem State.brokenOff_lastStatus : (s.brokenOff p).lastStatus = s.lastStatus := rfl
@[simp] theorem State.brokenOff_inFlight : (s.brokenOff p).inFlight = s.inFlight := rfl
@[simp] theorem State.brokenOff_port : (s.brokenOff p).port = s.port := rfl
@[simp] theorem State.brokenOff_inputs : (s.brokenOff p).inputs = s.inputs := rfl
@[simp] theorem State.brokenOff_drawCount : (s.brokenOff p).drawCount = s.drawCount := rfl
@[simp] theorem State.brokenOff_wire : (s.brokenOff p).wire = s.wire ++ [.broken p] := rfl
@[simp] theorem State.brokenOff_responses : (s.brokenOff p).responses = s.responses := rfl
@[simp] theorem State.brokenOff_statusReads : (s.brokenOff p).statusReads = s.statusReads := rfl

end

section
variable (s : State) (e : Status)

@[simp] theorem State.recover_params : (s.recover e).params = s.params := rfl
@[simp] theorem State.recover_wireMode : (s.recover e).wireMode = .spi := rfl
@[simp] theorem State.recover_pinCfg : (s.recover e).pinCfg = .spi := rfl
@[simp] theorem State.recover_selActive : (s.recover e).selActive = false := rfl
@[simp] theorem State.recover_selId : (s.recover e).selId = s.selId := rfl
@[simp] theorem State.recover_csN : (s.recover e).csN = linesAfterRecovery s.selActive s.selId s.csN := rfl
@[simp] theorem State.recover_busy : (s.recover e).busy = false := rfl
@[simp] theorem State.recover_prog : (s.recover e).prog = [] := rfl
@[simp] theorem State.recover_upc : (s.recover e).upc = 0 := rfl
@[simp] theorem State.recover_curHost : (s.recover e).curHost = s.curHost := rfl
@[simp] theorem State.recover_curCmd : (s.recover e).curCmd = s.curCmd := rfl
@[simp] theorem State.recover_curCs : (s.recover e).curCs = s.curCs := rfl
@[simp] theorem State.recover_curAddr : (s.recover e).curAddr = s.curAddr := rfl
@[simp] theorem State.recover_curLen : (s.recover e).curLen = s.curLen := rfl
@[simp] theorem State.recover_wbuf : (s.recover e).wbuf = [] := rfl
@[simp] theorem State.recover_rbuf : (s.recover e).rbuf = [] := rfl
@[simp] theorem State.recover_lastStatus : (s.recover e).lastStatus = e := rfl
@[simp] theorem State.recover_inFlight : (s.recover e).inFlight = [] := rfl
@[simp] theorem State.recover_port : (s.recover e).port = s.port := rfl
@[simp] theorem State.recover_inputs : (s.recover e).inputs = s.inputs := rfl
@[simp] theorem State.recover_drawCount : (s.recover e).drawCount = s.drawCount := rfl
@[simp] theorem State.recover_wire : (s.recover e).wire = s.wire ++ recoveryEvents s.selActive s.selId := rfl
@[simp] theorem State.recover_responses : (s.recover e).responses = s.responses ++ [{ host := s.curHost, response := plainResponse e s.rbuf }] := rfl
@[simp] theorem State.recover_statusReads : (s.recover e).statusReads = s.statusReads := rfl

end

section
variable (s : State)

@[simp] theorem State.complete_params : (s.complete).params = s.params := rfl
@[simp] theorem State.complete_wireMode : (s.complete).wireMode = s.wireMode := rfl
@[simp] theorem State.complete_pinCfg : (s.complete).pinCfg = s.pinCfg := rfl
@[simp] theorem State.complete_selActive : (s.complete).selActive = s.selActive := rfl
@[simp] theorem State.complete_selId : (s.complete).selId = s.selId := rfl
@[simp] theorem State.complete_csN : (s.complete).csN = s.csN := rfl
@[simp] theorem State.complete_busy : (s.complete).busy = false := rfl
@[simp] theorem State.complete_prog : (s.complete).prog = [] := rfl
@[simp] theorem State.complete_upc : (s.complete).upc = 0 := rfl
@[simp] theorem State.complete_curHost : (s.complete).curHost = s.curHost := rfl
@[simp] theorem State.complete_curCmd : (s.complete).curCmd = s.curCmd := rfl
@[simp] theorem State.complete_curCs : (s.complete).curCs = s.curCs := rfl
@[simp] theorem State.complete_curAddr : (s.complete).curAddr = s.curAddr := rfl
@[simp] theorem State.complete_curLen : (s.complete).curLen = s.curLen := rfl
@[simp] theorem State.complete_wbuf : (s.complete).wbuf = [] := rfl
@[simp] theorem State.complete_rbuf : (s.complete).rbuf = [] := rfl
@[simp] theorem State.complete_lastStatus : (s.complete).lastStatus = .ok := rfl
@[simp] theorem State.complete_inFlight : (s.complete).inFlight = s.inFlight := rfl
@[simp] theorem State.complete_port : (s.complete).port = s.port := rfl
@[simp] theorem State.complete_inputs : (s.complete).inputs = s.inputs := rfl
@[simp] theorem State.complete_drawCount : (s.complete).drawCount = s.drawCount := rfl
@[simp] theorem State.complete_wire : (s.complete).wire = s.wire := rfl
@[simp] theorem State.complete_responses : (s.complete).responses = s.responses ++ [{ host := s.curHost, response := completionResponse s.curCmd s.rbuf }] := rfl
@[simp] theorem State.complete_statusReads : (s.complete).statusReads = s.statusReads := rfl

end

section
variable (s : State) (st : Status)

@[simp] theorem State.rejectBusy_params : (s.rejectBusy st).params = s.params := rfl
@[simp] theorem State.rejectBusy_wireMode : (s.rejectBusy st).wireMode = s.wireMode := rfl
@[simp] theorem State.rejectBusy_pinCfg : (s.rejectBusy st).pinCfg = s.pinCfg := rfl
@[simp] theorem State.rejectBusy_selActive : (s.rejectBusy st).selActive = s.selActive := rfl
@[simp] theorem State.rejectBusy_selId : (s.rejectBusy st).selId = s.selId := rfl
@[simp] theorem State.rejectBusy_csN : (s.rejectBusy st).csN = s.csN := rfl
@[simp] theorem State.rejectBusy_busy : (s.rejectBusy st).busy = s.busy := rfl
@[simp] theorem State.rejectBusy_prog : (s.rejectBusy st).prog = s.prog := rfl
@[simp] theorem State.rejectBusy_upc : (s.rejectBusy st).upc = s.upc := rfl
@[simp] theorem State.rejectBusy_curHost : (s.rejectBusy st).curHost = s.curHost := rfl
@[simp] theorem State.rejectBusy_curCmd : (s.rejectBusy st).curCmd = s.curCmd := rfl
@[simp] theorem State.rejectBusy_curCs : (s.rejectBusy st).curCs = s.curCs := rfl
@[simp] theorem State.rejectBusy_curAddr : (s.rejectBusy st).curAddr = s.curAddr := rfl
@[simp] theorem State.rejectBusy_curLen : (s.rejectBusy st).curLen = s.curLen := rfl
@[simp] theorem State.rejectBusy_wbuf : (s.rejectBusy st).wbuf = s.wbuf := rfl
@[simp] theorem State.rejectBusy_rbuf : (s.rejectBusy st).rbuf = s.rbuf := rfl
@[simp] theorem State.rejectBusy_lastStatus : (s.rejectBusy st).lastStatus = s.lastStatus := rfl
@[simp] theorem State.rejectBusy_inFlight : (s.rejectBusy st).inFlight = s.inFlight := rfl
@[simp] theorem State.rejectBusy_port : (s.rejectBusy st).port = s.port := rfl
@[simp] theorem State.rejectBusy_inputs : (s.rejectBusy st).inputs = s.inputs := rfl
@[simp] theorem State.rejectBusy_drawCount : (s.rejectBusy st).drawCount = s.drawCount := rfl
@[simp] theorem State.rejectBusy_wire : (s.rejectBusy st).wire = s.wire := rfl
@[simp] theorem State.rejectBusy_responses : (s.rejectBusy st).responses = s.responses ++ [{ host := s.port.host, response := plainResponse st [] }] := rfl
@[simp] theorem State.rejectBusy_statusReads : (s.rejectBusy st).statusReads = s.statusReads := rfl

end

section
variable (s : State) (st : Status)

@[simp] theorem State.rejectIdle_params : (s.rejectIdle st).params = s.params := rfl
@[simp] theorem State.rejectIdle_wireMode : (s.rejectIdle st).wireMode = s.wireMode := rfl
@[simp] theorem State.rejectIdle_pinCfg : (s.rejectIdle st).pinCfg = s.pinCfg := rfl
@[simp] theorem State.rejectIdle_selActive : (s.rejectIdle st).selActive = s.selActive := rfl
@[simp] theorem State.rejectIdle_selId : (s.rejectIdle st).selId = s.selId := rfl
@[simp] theorem State.rejectIdle_csN : (s.rejectIdle st).csN = s.csN := rfl
@[simp] theorem State.rejectIdle_busy : (s.rejectIdle st).busy = s.busy := rfl
@[simp] theorem State.rejectIdle_prog : (s.rejectIdle st).prog = s.prog := rfl
@[simp] theorem State.rejectIdle_upc : (s.rejectIdle st).upc = s.upc := rfl
@[simp] theorem State.rejectIdle_curHost : (s.rejectIdle st).curHost = s.curHost := rfl
@[simp] theorem State.rejectIdle_curCmd : (s.rejectIdle st).curCmd = s.curCmd := rfl
@[simp] theorem State.rejectIdle_curCs : (s.rejectIdle st).curCs = s.curCs := rfl
@[simp] theorem State.rejectIdle_curAddr : (s.rejectIdle st).curAddr = s.curAddr := rfl
@[simp] theorem State.rejectIdle_curLen : (s.rejectIdle st).curLen = s.curLen := rfl
@[simp] theorem State.rejectIdle_wbuf : (s.rejectIdle st).wbuf = s.wbuf := rfl
@[simp] theorem State.rejectIdle_rbuf : (s.rejectIdle st).rbuf = s.rbuf := rfl
@[simp] theorem State.rejectIdle_lastStatus : (s.rejectIdle st).lastStatus = st := rfl
@[simp] theorem State.rejectIdle_inFlight : (s.rejectIdle st).inFlight = s.inFlight := rfl
@[simp] theorem State.rejectIdle_port : (s.rejectIdle st).port = s.port := rfl
@[simp] theorem State.rejectIdle_inputs : (s.rejectIdle st).inputs = s.inputs := rfl
@[simp] theorem State.rejectIdle_drawCount : (s.rejectIdle st).drawCount = s.drawCount := rfl
@[simp] theorem State.rejectIdle_wire : (s.rejectIdle st).wire = s.wire := rfl
@[simp] theorem State.rejectIdle_responses : (s.rejectIdle st).responses = s.responses ++ [{ host := s.port.host, response := plainResponse st [] }] := rfl
@[simp] theorem State.rejectIdle_statusReads : (s.rejectIdle st).statusReads = s.statusReads := rfl

end

section
variable (s : State) (c : CmdInfo) (cs : LineId) (addr : Addr) (len : Len) (prog : List MicroOp)

@[simp] theorem State.accept_params : (s.accept c cs addr len prog).params = s.params := rfl
@[simp] theorem State.accept_wireMode : (s.accept c cs addr len prog).wireMode = s.wireMode := rfl
@[simp] theorem State.accept_pinCfg : (s.accept c cs addr len prog).pinCfg = s.pinCfg := rfl
@[simp] theorem State.accept_selActive : (s.accept c cs addr len prog).selActive = s.selActive := rfl
@[simp] theorem State.accept_selId : (s.accept c cs addr len prog).selId = s.selId := rfl
@[simp] theorem State.accept_csN : (s.accept c cs addr len prog).csN = s.csN := rfl
@[simp] theorem State.accept_busy : (s.accept c cs addr len prog).busy = true := rfl
@[simp] theorem State.accept_prog : (s.accept c cs addr len prog).prog = prog := rfl
@[simp] theorem State.accept_upc : (s.accept c cs addr len prog).upc = 0 := rfl
@[simp] theorem State.accept_curHost : (s.accept c cs addr len prog).curHost = s.port.host := rfl
@[simp] theorem State.accept_curCmd : (s.accept c cs addr len prog).curCmd = c.code := rfl
@[simp] theorem State.accept_curCs : (s.accept c cs addr len prog).curCs = cs := rfl
@[simp] theorem State.accept_curAddr : (s.accept c cs addr len prog).curAddr = addr := rfl
@[simp] theorem State.accept_curLen : (s.accept c cs addr len prog).curLen = len := rfl
@[simp] theorem State.accept_wbuf : (s.accept c cs addr len prog).wbuf = if c.isWrite then s.port.wdata else [] := rfl
@[simp] theorem State.accept_rbuf : (s.accept c cs addr len prog).rbuf = [] := rfl
@[simp] theorem State.accept_lastStatus : (s.accept c cs addr len prog).lastStatus = s.lastStatus := rfl
@[simp] theorem State.accept_inFlight : (s.accept c cs addr len prog).inFlight = s.inFlight := rfl
@[simp] theorem State.accept_port : (s.accept c cs addr len prog).port = s.port := rfl
@[simp] theorem State.accept_inputs : (s.accept c cs addr len prog).inputs = s.inputs := rfl
@[simp] theorem State.accept_drawCount : (s.accept c cs addr len prog).drawCount = s.drawCount := rfl
@[simp] theorem State.accept_wire : (s.accept c cs addr len prog).wire = s.wire := rfl
@[simp] theorem State.accept_responses : (s.accept c cs addr len prog).responses = s.responses := rfl
@[simp] theorem State.accept_statusReads : (s.accept c cs addr len prog).statusReads = s.statusReads := rfl

end

section
variable (s : State)

@[simp] theorem State.countDraw_params : (s.countDraw).params = s.params := rfl
@[simp] theorem State.countDraw_wireMode : (s.countDraw).wireMode = s.wireMode := rfl
@[simp] theorem State.countDraw_pinCfg : (s.countDraw).pinCfg = s.pinCfg := rfl
@[simp] theorem State.countDraw_selActive : (s.countDraw).selActive = s.selActive := rfl
@[simp] theorem State.countDraw_selId : (s.countDraw).selId = s.selId := rfl
@[simp] theorem State.countDraw_csN : (s.countDraw).csN = s.csN := rfl
@[simp] theorem State.countDraw_busy : (s.countDraw).busy = s.busy := rfl
@[simp] theorem State.countDraw_prog : (s.countDraw).prog = s.prog := rfl
@[simp] theorem State.countDraw_upc : (s.countDraw).upc = s.upc := rfl
@[simp] theorem State.countDraw_curHost : (s.countDraw).curHost = s.curHost := rfl
@[simp] theorem State.countDraw_curCmd : (s.countDraw).curCmd = s.curCmd := rfl
@[simp] theorem State.countDraw_curCs : (s.countDraw).curCs = s.curCs := rfl
@[simp] theorem State.countDraw_curAddr : (s.countDraw).curAddr = s.curAddr := rfl
@[simp] theorem State.countDraw_curLen : (s.countDraw).curLen = s.curLen := rfl
@[simp] theorem State.countDraw_wbuf : (s.countDraw).wbuf = s.wbuf := rfl
@[simp] theorem State.countDraw_rbuf : (s.countDraw).rbuf = s.rbuf := rfl
@[simp] theorem State.countDraw_lastStatus : (s.countDraw).lastStatus = s.lastStatus := rfl
@[simp] theorem State.countDraw_inFlight : (s.countDraw).inFlight = s.inFlight := rfl
@[simp] theorem State.countDraw_port : (s.countDraw).port = s.port := rfl
@[simp] theorem State.countDraw_inputs : (s.countDraw).inputs = s.inputs := rfl
@[simp] theorem State.countDraw_drawCount : (s.countDraw).drawCount = s.drawCount + 1 := rfl
@[simp] theorem State.countDraw_wire : (s.countDraw).wire = s.wire := rfl
@[simp] theorem State.countDraw_responses : (s.countDraw).responses = s.responses := rfl
@[simp] theorem State.countDraw_statusReads : (s.countDraw).statusReads = s.statusReads := rfl

end

section
variable (s : State) (es : List Event)

@[simp] theorem State.withInputs_params : (s.withInputs es).params = s.params := rfl
@[simp] theorem State.withInputs_wireMode : (s.withInputs es).wireMode = s.wireMode := rfl
@[simp] theorem State.withInputs_pinCfg : (s.withInputs es).pinCfg = s.pinCfg := rfl
@[simp] theorem State.withInputs_selActive : (s.withInputs es).selActive = s.selActive := rfl
@[simp] theorem State.withInputs_selId : (s.withInputs es).selId = s.selId := rfl
@[simp] theorem State.withInputs_csN : (s.withInputs es).csN = s.csN := rfl
@[simp] theorem State.withInputs_busy : (s.withInputs es).busy = s.busy := rfl
@[simp] theorem State.withInputs_prog : (s.withInputs es).prog = s.prog := rfl
@[simp] theorem State.withInputs_upc : (s.withInputs es).upc = s.upc := rfl
@[simp] theorem State.withInputs_curHost : (s.withInputs es).curHost = s.curHost := rfl
@[simp] theorem State.withInputs_curCmd : (s.withInputs es).curCmd = s.curCmd := rfl
@[simp] theorem State.withInputs_curCs : (s.withInputs es).curCs = s.curCs := rfl
@[simp] theorem State.withInputs_curAddr : (s.withInputs es).curAddr = s.curAddr := rfl
@[simp] theorem State.withInputs_curLen : (s.withInputs es).curLen = s.curLen := rfl
@[simp] theorem State.withInputs_wbuf : (s.withInputs es).wbuf = s.wbuf := rfl
@[simp] theorem State.withInputs_rbuf : (s.withInputs es).rbuf = s.rbuf := rfl
@[simp] theorem State.withInputs_lastStatus : (s.withInputs es).lastStatus = s.lastStatus := rfl
@[simp] theorem State.withInputs_inFlight : (s.withInputs es).inFlight = s.inFlight := rfl
@[simp] theorem State.withInputs_port : (s.withInputs es).port = s.port := rfl
@[simp] theorem State.withInputs_inputs : (s.withInputs es).inputs = es := rfl
@[simp] theorem State.withInputs_drawCount : (s.withInputs es).drawCount = s.drawCount := rfl
@[simp] theorem State.withInputs_wire : (s.withInputs es).wire = s.wire := rfl
@[simp] theorem State.withInputs_responses : (s.withInputs es).responses = s.responses := rfl
@[simp] theorem State.withInputs_statusReads : (s.withInputs es).statusReads = s.statusReads := rfl

end

section
variable (s : State) (h : Nat) (wdata : List Byte)

@[simp] theorem State.present_params : (s.present h wdata).params = s.params := rfl
@[simp] theorem State.present_wireMode : (s.present h wdata).wireMode = s.wireMode := rfl
@[simp] theorem State.present_pinCfg : (s.present h wdata).pinCfg = s.pinCfg := rfl
@[simp] theorem State.present_selActive : (s.present h wdata).selActive = s.selActive := rfl
@[simp] theorem State.present_selId : (s.present h wdata).selId = s.selId := rfl
@[simp] theorem State.present_csN : (s.present h wdata).csN = s.csN := rfl
@[simp] theorem State.present_busy : (s.present h wdata).busy = s.busy := rfl
@[simp] theorem State.present_prog : (s.present h wdata).prog = s.prog := rfl
@[simp] theorem State.present_upc : (s.present h wdata).upc = s.upc := rfl
@[simp] theorem State.present_curHost : (s.present h wdata).curHost = s.curHost := rfl
@[simp] theorem State.present_curCmd : (s.present h wdata).curCmd = s.curCmd := rfl
@[simp] theorem State.present_curCs : (s.present h wdata).curCs = s.curCs := rfl
@[simp] theorem State.present_curAddr : (s.present h wdata).curAddr = s.curAddr := rfl
@[simp] theorem State.present_curLen : (s.present h wdata).curLen = s.curLen := rfl
@[simp] theorem State.present_wbuf : (s.present h wdata).wbuf = s.wbuf := rfl
@[simp] theorem State.present_rbuf : (s.present h wdata).rbuf = s.rbuf := rfl
@[simp] theorem State.present_lastStatus : (s.present h wdata).lastStatus = s.lastStatus := rfl
@[simp] theorem State.present_inFlight : (s.present h wdata).inFlight = s.inFlight := rfl
@[simp] theorem State.present_port : (s.present h wdata).port = { host := h, wdata := wdata } := rfl
@[simp] theorem State.present_inputs : (s.present h wdata).inputs = s.inputs := rfl
@[simp] theorem State.present_drawCount : (s.present h wdata).drawCount = s.drawCount := rfl
@[simp] theorem State.present_wire : (s.present h wdata).wire = s.wire := rfl
@[simp] theorem State.present_responses : (s.present h wdata).responses = s.responses := rfl
@[simp] theorem State.present_statusReads : (s.present h wdata).statusReads = s.statusReads := rfl

end

section
variable (s : State) (h : Nat)

@[simp] theorem State.readStatus_params : (s.readStatus h).params = s.params := by
  unfold State.readStatus; split <;> rfl
@[simp] theorem State.readStatus_wireMode : (s.readStatus h).wireMode = s.wireMode := by
  unfold State.readStatus; split <;> rfl
@[simp] theorem State.readStatus_pinCfg : (s.readStatus h).pinCfg = s.pinCfg := by
  unfold State.readStatus; split <;> rfl
@[simp] theorem State.readStatus_selActive : (s.readStatus h).selActive = s.selActive := by
  unfold State.readStatus; split <;> rfl
@[simp] theorem State.readStatus_selId : (s.readStatus h).selId = s.selId := by
  unfold State.readStatus; split <;> rfl
@[simp] theorem State.readStatus_csN : (s.readStatus h).csN = s.csN := by
  unfold State.readStatus; split <;> rfl
@[simp] theorem State.readStatus_busy : (s.readStatus h).busy = s.busy := by
  unfold State.readStatus; split <;> rfl
@[simp] theorem State.readStatus_prog : (s.readStatus h).prog = s.prog := by
  unfold State.readStatus; split <;> rfl
@[simp] theorem State.readStatus_upc : (s.readStatus h).upc = s.upc := by
  unfold State.readStatus; split <;> rfl
@[simp] theorem State.readStatus_curHost : (s.readStatus h).curHost = s.curHost := by
  unfold State.readStatus; split <;> rfl
@[simp] theorem State.readStatus_curCmd : (s.readStatus h).curCmd = s.curCmd := by
  unfold State.readStatus; split <;> rfl
@[simp] theorem State.readStatus_curCs : (s.readStatus h).curCs = s.curCs := by
  unfold State.readStatus; split <;> rfl
@[simp] theorem State.readStatus_curAddr : (s.readStatus h).curAddr = s.curAddr := by
  unfold State.readStatus; split <;> rfl
@[simp] theorem State.readStatus_curLen : (s.readStatus h).curLen = s.curLen := by
  unfold State.readStatus; split <;> rfl
@[simp] theorem State.readStatus_wbuf : (s.readStatus h).wbuf = s.wbuf := by
  unfold State.readStatus; split <;> rfl
@[simp] theorem State.readStatus_rbuf : (s.readStatus h).rbuf = s.rbuf := by
  unfold State.readStatus; split <;> rfl
@[simp] theorem State.readStatus_lastStatus : (s.readStatus h).lastStatus = s.lastStatus := by
  unfold State.readStatus; split <;> rfl
@[simp] theorem State.readStatus_inFlight : (s.readStatus h).inFlight = s.inFlight := by
  unfold State.readStatus; split <;> rfl
@[simp] theorem State.readStatus_port : (s.readStatus h).port = s.port := by
  unfold State.readStatus; split <;> rfl
@[simp] theorem State.readStatus_inputs : (s.readStatus h).inputs = s.inputs := by
  unfold State.readStatus; split <;> rfl
@[simp] theorem State.readStatus_drawCount : (s.readStatus h).drawCount = s.drawCount := by
  unfold State.readStatus; split <;> rfl
@[simp] theorem State.readStatus_wire : (s.readStatus h).wire = s.wire := by
  unfold State.readStatus; split <;> rfl
@[simp] theorem State.readStatus_responses : (s.readStatus h).responses = s.responses := by
  unfold State.readStatus; split <;> rfl

end

end Sys2Proof.Machine
end

