-- ==== Sys2Proof/Laws/Ops.lean ====
section
/-! SUPPORT. What each shared operation can do, said once: the checks of acceptance, a submission, the micro-ops, and
the answers a backend may give. -/

namespace Sys2Proof.Machine

/-- Check 2 passes where the command reads no `CS`, or names a line of the block (R122). -/
theorem badLine_eq_false (c : CmdInfo) (cs : LineId) (s : State) :
    badLine c cs s = false ↔ (c.readsCs = true → cs.toNat < s.params.nCs) := by
  simp [badLine]

/-- Check 3 passes where the command is no data command, or its length is within `MAX_LEN` (R122). -/
theorem badLength_eq_false (c : CmdInfo) (len : Len) (s : State) :
    badLength c len s = false ↔ (c.isData = true → len.toNat ≤ s.params.maxLen.toNat) := by
  simp [badLength]

/-- Check 4 passes where the command is no write, or the write data has the stated length (R122). -/
theorem badData_eq_false (c : CmdInfo) (len : Len) (s : State) :
    badData c len s = false ↔ (c.isWrite = true → s.port.wdata.length = len.toNat) := by
  simp [badData]

/-- Every check passes exactly when no single one fails (R122). -/
theorem idleCheck_eq_none (c : CmdInfo) (cs : LineId) (len : Len) (s : State) :
    idleCheck c cs len s = none ↔
      badLine c cs s = false ∧ badLength c len s = false ∧ badData c len s = false ∧ c.mode = s.wireMode := by
  unfold idleCheck
  cases badLine c cs s <;> cases badLength c len s <;> cases badData c len s <;> simp

/-- The checks answer `BadArgument` or `InvalidModeTransition`, nothing else (R122). -/
theorem idleCheck_eq_some {c : CmdInfo} {cs : LineId} {len : Len} {s : State} {st : Status}
    (h : idleCheck c cs len s = some st) : st = .badArgument ∨ st = .invalidModeTransition := by
  unfold idleCheck at h
  split at h
  · exact .inl (by simpa using h.symm)
  split at h
  · exact .inl (by simpa using h.symm)
  split at h
  · exact .inl (by simpa using h.symm)
  split at h
  · exact .inr (by simpa using h.symm)
  · cases h

/-- The answer while busy is `BusBusy` or `InvalidModeTransition` (R121). -/
theorem busyStatus_eq (b : Bool) : busyStatus b = .busBusy ∨ busyStatus b = .invalidModeTransition := by
  cases b <;> simp [busyStatus]

/-- A submission while busy is rejected (R121). -/
theorem submit_busy {c : CmdInfo} {cs : LineId} {addr : Addr} {len : Len} {prog : List MicroOp} {s : State}
    (h : s.busy = true) : submit c cs addr len prog s = .next (s.rejectBusy (busyStatus c.isTransition)) := by
  simp [submit, h]

/-- A submission that fails a check while idle is rejected with that check's status (R122). -/
theorem submit_refused {c : CmdInfo} {cs : LineId} {addr : Addr} {len : Len} {prog : List MicroOp} {s : State}
    {st : Status} (h : s.busy = false) (hc : idleCheck c cs len s = some st) :
    submit c cs addr len prog s = .next (s.rejectIdle st) := by
  simp [submit, h, hc]

/-- A submission that passes every check while idle is accepted (R120). -/
theorem submit_accepted {c : CmdInfo} {cs : LineId} {addr : Addr} {len : Len} {prog : List MicroOp} {s : State}
    (h : s.busy = false) (hc : idleCheck c cs len s = none) :
    submit c cs addr len prog s = .next (s.accept c cs addr len prog) := by
  simp [submit, h, hc]

/-- Everything a submission can do: it is rejected while busy, rejected while idle, or accepted (R120 to R122). -/
theorem submit_cases {c : CmdInfo} {cs : LineId} {addr : Addr} {len : Len} {prog : List MicroOp} {s t : State}
    (h : submit c cs addr len prog s = .next t) :
    (s.busy = true ∧ t = s.rejectBusy (busyStatus c.isTransition)) ∨
    (s.busy = false ∧ ∃ st, idleCheck c cs len s = some st ∧ t = s.rejectIdle st) ∨
    (s.busy = false ∧ idleCheck c cs len s = none ∧ t = s.accept c cs addr len prog) := by
  cases hb : s.busy with
  | true => rw [submit_busy hb] at h; exact .inl ⟨rfl, by cases h; rfl⟩
  | false =>
    cases hc : idleCheck c cs len s with
    | some st => rw [submit_refused hb hc] at h; exact .inr (.inl ⟨rfl, st, rfl, by cases h; rfl⟩)
    | none => rw [submit_accepted hb hc] at h; exact .inr (.inr ⟨rfl, rfl, by cases h; rfl⟩)

/-- A submission never faults and never refuses. -/
theorem submit_next (c : CmdInfo) (cs : LineId) (addr : Addr) (len : Len) (prog : List MicroOp) (s : State) :
    ∃ t, submit c cs addr len prog s = .next t := by
  unfold submit
  split
  · exact ⟨_, rfl⟩
  · split <;> exact ⟨_, rfl⟩

/-- What acceptance must know of each command, as its meaning gives it. -/
def infoOf (i : Instr) : CmdInfo :=
  match i with
  | .rsten _ _ _ => controlInfo 0x1
  | .rst _ _ _ => controlInfo 0x2
  | .rdid _ _ _ => controlInfo 0x3
  | .tglbl _ _ _ => controlInfo 0x4
  | .frd _ _ _ => dataInfo 0x5 false .spi
  | .fwr _ _ _ => dataInfo 0x6 true .spi
  | .qen _ _ _ => transitionInfo 0x7 .spi
  | .qfrd _ _ _ => dataInfo 0x8 false .qspi
  | .qfwr _ _ _ => dataInfo 0x9 true .qspi
  | .qex _ _ _ => transitionInfo 0xA .qspi

/-- The expansion of each command, as its meaning gives it. -/
def expansionOf (i : Instr) (p : Params) (wdata : List Byte) : List MicroOp :=
  match i with
  | .rsten cs _ _ => frame cs (body phasesRsten .spi)
  | .rst cs _ _ => frame cs (body phasesRst .spi) ++ [.settle]
  | .rdid cs _ _ => frame cs (body (phasesRdid p) .spi)
  | .tglbl cs _ _ => frame cs (body phasesTglbl .spi)
  | .frd cs a l => frame cs (body (phasesFrd a l) .spi)
  | .fwr cs a _ => frame cs (body (phasesFwr a wdata) .spi)
  | .qen _ _ _ => enterProgram p
  | .qfrd cs a l => frame cs (body (phasesQfrd a l) .qspi)
  | .qfwr cs a _ => frame cs (body (phasesQfwr p a wdata) .qspi)
  | .qex _ _ _ => exitProgram p

/-- Every command's meaning is a submission with its own checks and its own expansion. -/
theorem exec_eq_submit (i : Instr) (s : State) :
    exec i s = submit (infoOf i) i.line i.addr i.len (expansionOf i s.params s.port.wdata) s := by
  cases i <;> rfl

/-- The code acceptance latches is the command's (R76, R120). -/
theorem infoOf_code (i : Instr) : (infoOf i).code = i.code := by cases i <;> rfl

/-- SoftwareBitBang never times out (R102). -/
theorem admitTransfer_softwareBitBang (a : Answer) : admitTransfer .softwareBitBang a ≠ .timeout := by
  cases a <;> simp [admitTransfer]

/-- HardwareAssisted may give every answer to a transfer (R102). -/
@[simp] theorem admitTransfer_hardwareAssisted (a : Answer) : admitTransfer .hardwareAssisted a = a := by
  cases a <;> rfl

/-- `Ok` and `Short` stand on either backend (R102). -/
@[simp] theorem admitTransfer_ok (b : Backend) : admitTransfer b .ok = .ok := by cases b <;> rfl

@[simp] theorem admitTransfer_short (b : Backend) : admitTransfer b .short = .short := by cases b <;> rfl

/-- `DRAIN` returns `Ok` at once on SoftwareBitBang (R102, R108). -/
@[simp] theorem admitDrain_softwareBitBang (a : Answer) : admitDrain .softwareBitBang a = .ok := by
  cases a <;> rfl

@[simp] theorem admitDrain_ok (b : Backend) : admitDrain b .ok = .ok := by cases b <;> rfl

/-- `DRAIN` never falls short (R102). -/
theorem admitDrain_ne_short (b : Backend) (a : Answer) : admitDrain b a ≠ .short := by
  cases b <;> cases a <;> simp [admitDrain]

/-- What a micro-op does when it returns `Ok` with value `v`, as R101 gives it. -/
def State.okOp (s : State) (op : MicroOp) (v : BitVec 32) : State :=
  match op with
  | .sel i => (s.select i).advance
  | .unsel i => (s.release i).advance
  | .tx8 b => ((s.transferred (.xb b) v).received []).advance
  | .rx8 => ((s.transferred (.xb Config.filler) v).received [v.setWidth 8]).advance
  | .rx32 => ((s.transferred (.xw 0) v).received (wordBytes v)).advance
  | .qtx b => ((s.transferred (.wnp b) v).received []).advance
  | .qrx => ((s.transferred .rnp v).received [v.setWidth 8]).advance
  | .qskip => ((s.transferred .rnp v).received []).advance
  | .drain => s.drained.advance
  | .pins m => (s.setPins m).advance
  | .mode m => (s.setMode m).advance
  | .settle => s.advance

/-- What a micro-op puts in front of the recovery when it fails: a transfer leaves its broken primitive in the trace. -/
def State.failedOp (s : State) (op : MicroOp) : State :=
  match op with
  | .tx8 b => s.brokenOff (.xb b)
  | .rx8 => s.brokenOff (.xb Config.filler)
  | .rx32 => s.brokenOff (.xw 0)
  | .qtx b => s.brokenOff (.wnp b)
  | .qrx => s.brokenOff .rnp
  | .qskip => s.brokenOff .rnp
  | _ => s

/-- A transfer does one of three things (R101, R124). -/
theorem runTransfer_cases (p : Primitive) (keep : BitVec 32 → List Byte) (d : Draw) (s : State) :
    runTransfer p keep d s = ((s.transferred p d.value).received (keep d.value)).advance ∨
    (s.params.backend ≠ .softwareBitBang ∧ runTransfer p keep d s = (s.brokenOff p).recover .transportTimeout) ∨
    runTransfer p keep d s = (s.brokenOff p).recover .shortTransfer := by
  unfold runTransfer
  split
  · exact .inl rfl
  · next h =>
    refine .inr (.inl ⟨fun hb => ?_, rfl⟩)
    rw [hb] at h
    exact admitTransfer_softwareBitBang _ h
  · exact .inr (.inr rfl)

/-- A transfer that the transport answers `Ok` (R101). -/
theorem runTransfer_ok {p : Primitive} {keep : BitVec 32 → List Byte} {d : Draw} {s : State} (h : d.answer = .ok) :
    runTransfer p keep d s = ((s.transferred p d.value).received (keep d.value)).advance := by
  simp [runTransfer, h]

/-- `DRAIN` returns `Ok` or times out, the latter never on SoftwareBitBang (R102, R108). -/
theorem runDrain_cases (d : Draw) (s : State) :
    runDrain d s = s.drained.advance ∨
    (s.params.backend ≠ .softwareBitBang ∧ runDrain d s = s.recover .transportTimeout) := by
  unfold runDrain
  split
  · exact .inl rfl
  · next h =>
    refine .inr ⟨fun hb => ?_, rfl⟩
    rw [hb] at h
    exact h (admitDrain_softwareBitBang _)

/-- `SEL` with no selection held asserts its line (R141). -/
theorem runSel_free {i : LineId} {s : State} (h : s.selActive = false) : runSel i s = (s.select i).advance := by
  simp [runSel, framerSel, h]

/-- Everything a due micro-op whose precondition holds can do: wait (`SETTLE`), return `Ok`, or end the command in the
recovery with `TransportTimeout` (never on SoftwareBitBang) or `ShortTransfer` (R101, R102, R124). -/
theorem runOp_cases {op : MicroOp} {s : State} (d : Draw) (hp : op.pre s = true) :
    (op = .settle ∧ runOp op d s = s) ∨
    runOp op d s = s.okOp op d.value ∨
    (s.params.backend ≠ .softwareBitBang ∧ runOp op d s = (s.failedOp op).recover .transportTimeout) ∨
    runOp op d s = (s.failedOp op).recover .shortTransfer := by
  cases op with
  | sel i => exact .inr (.inl (runSel_free (by simpa [MicroOp.pre] using hp)))
  | unsel i => exact .inr (.inl rfl)
  | tx8 b => exact .inr (runTransfer_cases (.xb b) keepNone d s)
  | rx8 => exact .inr (runTransfer_cases (.xb Config.filler) keepByte d s)
  | rx32 => exact .inr (runTransfer_cases (.xw 0) wordBytes d s)
  | qtx b => exact .inr (runTransfer_cases (.wnp b) keepNone d s)
  | qrx => exact .inr (runTransfer_cases .rnp keepByte d s)
  | qskip => exact .inr (runTransfer_cases .rnp keepNone d s)
  | drain =>
    rcases runDrain_cases d s with h | h
    · exact .inr (.inl h)
    · exact .inr (.inr (.inl h))
  | pins m => exact .inr (.inl rfl)
  | mode m => exact .inr (.inl rfl)
  | settle => exact .inl ⟨rfl, rfl⟩

/-- A due micro-op that the transport answers `Ok` returns `Ok`; `SETTLE` waits for the timer (R101, R110). -/
theorem runOp_ok {op : MicroOp} {s : State} {d : Draw} (hp : op.pre s = true) (hd : d.answer = .ok)
    (hs : op ≠ .settle) : runOp op d s = s.okOp op d.value := by
  cases op with
  | sel i => exact runSel_free (by simpa [MicroOp.pre] using hp)
  | unsel i => rfl
  | tx8 b => exact runTransfer_ok hd
  | rx8 => exact runTransfer_ok hd
  | rx32 => exact runTransfer_ok hd
  | qtx b => exact runTransfer_ok hd
  | qrx => exact runTransfer_ok hd
  | qskip => exact runTransfer_ok hd
  | drain => simp [runOp, runDrain, hd, State.okOp]
  | pins m => rfl
  | mode m => rfl
  | settle => exact absurd rfl hs

end Sys2Proof.Machine
end

