-- ==== Sys2Proof/Laws/Expansion.lean ====
section
/-! SUPPORT. Each command's expansion written out, as lists of micro-ops headed by the selection (42_command_protocol
R161 to R169, 43_mode_controller R202, R205), and how many bytes stretches of an expansion read. -/

namespace Sys2Proof.Machine

/-- The expansion built by phases and frames is the one written out in Safety. -/
theorem expansionOf_eq_commandProgram (i : Instr) (p : Params) (wdata : List Byte) :
    expansionOf i p wdata =
      commandProgram p i.code i.line i.addr i.len (if (infoOf i).isWrite then wdata else []) := by
  cases i <;>
    simp [expansionOf, commandProgram, frame, body, Instr.code, Instr.line, Instr.addr, Instr.len, infoOf, mux,
      addrBytes, phasesRsten, phasesRst, phasesRdid, phasesTglbl, phasesFrd, phasesFwr, phasesQfrd, phasesQfwr,
      dataInfo, Config.filler, enterProgram, exitProgram, allLines, enableFrame, disableFrame, phasesEnableQspi,
      List.flatMap_map, List.replicate]

section
variable (p : Params) (wdata : List Byte) (cs : LineId) (a : Addr) (l : Len)

theorem expansionOf_rsten : expansionOf (.rsten cs a l) p wdata = [.sel cs, .tx8 0x66, .drain, .unsel cs] := rfl

theorem expansionOf_rst : expansionOf (.rst cs a l) p wdata = [.sel cs, .tx8 0x99, .drain, .unsel cs, .settle] := rfl

theorem expansionOf_tglbl : expansionOf (.tglbl cs a l) p wdata = [.sel cs, .tx8 0xC0, .drain, .unsel cs] := rfl

theorem expansionOf_rdid :
    expansionOf (.rdid cs a l) p wdata =
      .sel cs :: .tx8 0x9F ::
        (List.replicate p.readIdPadBytes (.tx8 0x00) ++ [.rx32, .rx32, .drain, .unsel cs]) := by
  simp [expansionOf_eq_commandProgram, commandProgram, Instr.code, Instr.line]

theorem expansionOf_frd :
    expansionOf (.frd cs a l) p wdata =
      .sel cs :: .tx8 0x0B :: .tx8 (a.extractLsb' 16 8) :: .tx8 (a.extractLsb' 8 8) :: .tx8 (a.extractLsb' 0 8) ::
        .tx8 0x00 :: (List.replicate l.toNat .rx8 ++ [.drain, .unsel cs]) := by
  simp [expansionOf_eq_commandProgram, commandProgram, Instr.code, Instr.line, Instr.addr, Instr.len]

theorem expansionOf_fwr :
    expansionOf (.fwr cs a l) p wdata =
      .sel cs :: .tx8 0x02 :: .tx8 (a.extractLsb' 16 8) :: .tx8 (a.extractLsb' 8 8) :: .tx8 (a.extractLsb' 0 8) ::
        (wdata.map .tx8 ++ [.drain, .unsel cs]) := by
  simp [expansionOf_eq_commandProgram, commandProgram, Instr.code, Instr.line, Instr.addr, infoOf, dataInfo]

theorem expansionOf_qfrd :
    expansionOf (.qfrd cs a l) p wdata =
      .sel cs :: .qtx 0xEB :: .qtx (a.extractLsb' 16 8) :: .qtx (a.extractLsb' 8 8) :: .qtx (a.extractLsb' 0 8) ::
        .qskip :: .qskip :: .qskip :: (List.replicate l.toNat .qrx ++ [.drain, .unsel cs]) := by
  simp [expansionOf_eq_commandProgram, commandProgram, Instr.code, Instr.line, Instr.addr, Instr.len]

theorem expansionOf_qfwr :
    expansionOf (.qfwr cs a l) p wdata =
      .sel cs :: .qtx p.qspiWriteOpcode :: .qtx (a.extractLsb' 16 8) :: .qtx (a.extractLsb' 8 8) ::
        .qtx (a.extractLsb' 0 8) :: (wdata.map .qtx ++ [.drain, .unsel cs]) := by
  simp [expansionOf_eq_commandProgram, commandProgram, Instr.code, Instr.line, Instr.addr, infoOf, dataInfo]

theorem expansionOf_qen :
    expansionOf (.qen cs a l) p wdata =
      (allLines p).flatMap (fun i => [.sel i, .tx8 0x35, .drain, .unsel i]) ++ [.pins .qspi, .mode .qspi] := rfl

theorem expansionOf_qex :
    expansionOf (.qex cs a l) p wdata =
      (allLines p).flatMap (fun i => .sel i :: (p.exitSequence.map .qtx ++ [.drain, .unsel i])) ++
        [.pins .spi, .mode .spi] := by
  have h : disableFrame p = fun i => .sel i :: (p.exitSequence.map .qtx ++ [.drain, .unsel i]) := by
    funext i
    simp [disableFrame, frame]
  show (allLines p).flatMap (disableFrame p) ++ [.pins .spi, .mode .spi] = _
  rw [h]

end

@[simp] theorem bytesToRead_nil : bytesToRead [] = 0 := rfl

theorem bytesToRead_cons (o : MicroOp) (l : List MicroOp) : bytesToRead (o :: l) = o.bytesRead + bytesToRead l := by
  simp [bytesToRead]

theorem bytesToRead_append (a b : List MicroOp) : bytesToRead (a ++ b) = bytesToRead a + bytesToRead b := by
  simp [bytesToRead]

theorem bytesToRead_replicate (n : Nat) (o : MicroOp) : bytesToRead (List.replicate n o) = n * o.bytesRead := by
  simp [bytesToRead]

theorem bytesToRead_map (f : Byte → MicroOp) (hf : ∀ b, (f b).bytesRead = 0) (l : List Byte) :
    bytesToRead (l.map f) = 0 := by
  induction l with
  | nil => rfl
  | cons a l ih => simp [bytesToRead_cons, hf, ih]

end Sys2Proof.Machine
end

