-- ==== Sys2Proof/Laws/Memory.lean ====
section
/-! SUPPORT. The laws of a device's byte array: every operation keeps the canonical form, a read gives the byte written
last, and a write leaves every other byte alone. -/

namespace Sys2Proof.Machine

/-- The bound of the canonical form, with its parts as propositions. -/
theorem memWfFrom_cons {lo k : Nat} {v : Byte} {t : List Host.Cell} :
    memWfFrom lo ((k, v) :: t) = true ↔
      lo ≤ k ∧ k < arraySize ∧ v ≠ unlistedByte ∧ memWfFrom (k + 1) t = true := by
  simp [memWfFrom, and_assoc]

theorem memWfFrom_mono {lo hi : Nat} (h : lo ≤ hi) {m : List Host.Cell} (hm : memWfFrom hi m = true) :
    memWfFrom lo m = true := by
  cases m with
  | nil => rfl
  | cons c t =>
    obtain ⟨h1, h2⟩ := memWfFrom_cons.1 hm
    exact memWfFrom_cons.2 ⟨Nat.le_trans h h1, h2⟩

/-- Below its bound a canonical array lists nothing. -/
theorem memByte_below {lo a : Nat} (h : a < lo) {m : List Host.Cell} (hm : memWfFrom lo m = true) :
    memByte m a = unlistedByte := by
  induction m generalizing lo with
  | nil => rfl
  | cons c t ih =>
    obtain ⟨h1, -, -, h4⟩ := memWfFrom_cons.1 hm
    rw [memByte, if_neg (by omega)]
    exact ih (by omega) h4

theorem consCell_wf {lo a : Nat} (hlo : lo ≤ a) (ha : a < arraySize) (v : Byte) {t : List Host.Cell}
    (ht : memWfFrom (a + 1) t = true) : memWfFrom lo (consCell a v t) = true := by
  unfold consCell
  split
  next => exact memWfFrom_mono (by omega) ht
  next hv => exact memWfFrom_cons.2 ⟨hlo, ha, hv, ht⟩

theorem memByte_consCell {a : Nat} (v : Byte) {t : List Host.Cell} (ht : memWfFrom (a + 1) t = true) (x : Nat) :
    memByte (consCell a v t) x = if x = a then v else memByte t x := by
  unfold consCell
  split
  next hv =>
    split
    next hx => rw [hx, memByte_below (Nat.lt_succ_self a) ht, hv]
    next => rfl
  next =>
    rw [memByte]
    by_cases hx : x = a
    · rw [if_pos hx, if_pos hx.symm]
    · rw [if_neg hx, if_neg (fun h => hx h.symm)]

/-- Writing one byte keeps the canonical form. -/
theorem setByte_wfFrom {lo a : Nat} (hlo : lo ≤ a) (ha : a < arraySize) (v : Byte) {m : List Host.Cell}
    (hm : memWfFrom lo m = true) : memWfFrom lo (setByte m a v) = true := by
  induction m generalizing lo with
  | nil => exact consCell_wf hlo ha v rfl
  | cons c t ih =>
    obtain ⟨h1, h2, h3, h4⟩ := memWfFrom_cons.1 hm
    rw [setByte]
    split
    next hk => exact consCell_wf hlo ha v (memWfFrom_cons.2 ⟨by omega, h2, h3, h4⟩)
    next =>
      split
      next he => exact consCell_wf hlo ha v (he ▸ h4)
      next => exact memWfFrom_cons.2 ⟨h1, h2, h3, ih (by omega) h4⟩

/-- What every byte reads as after one byte is written. -/
theorem memByte_setByte {lo a : Nat} (v : Byte) {m : List Host.Cell} (hm : memWfFrom lo m = true) (x : Nat) :
    memByte (setByte m a v) x = if x = a then v else memByte m x := by
  induction m generalizing lo with
  | nil => exact memByte_consCell v rfl x
  | cons c t ih =>
    obtain ⟨k, w⟩ := c
    obtain ⟨h1, h2, h3, h4⟩ := memWfFrom_cons.1 hm
    rw [setByte]
    split
    next hk => exact memByte_consCell v (memWfFrom_cons.2 ⟨by omega, h2, h3, h4⟩) x
    next hk =>
      split
      next he =>
        subst he
        rw [memByte_consCell v h4, memByte]
        by_cases hx : x = a
        · rw [if_pos hx, if_pos hx]
        · rw [if_neg hx, if_neg hx, if_neg (fun h => hx h.symm)]
      next he =>
        rw [memByte, memByte, ih h4]
        by_cases hx : k = x
        · rw [if_pos hx, if_neg (by omega), if_pos hx]
        · rw [if_neg hx, if_neg hx]

theorem setByte_wf {a : Nat} (ha : a < arraySize) (v : Byte) {m : List Host.Cell} (hm : Memory.wf m = true) :
    Memory.wf (setByte m a v) = true := setByte_wfFrom (Nat.zero_le a) ha v hm

/-- A run of bytes written keeps the canonical form. -/
theorem memWrite_wf (addr : Nat) (v : List Byte) {m : List Host.Cell} (hm : Memory.wf m = true) :
    Memory.wf (memWrite m addr v) = true := by
  induction v generalizing m addr with
  | nil => exact hm
  | cons b bs ih => exact ih _ (setByte_wf (Nat.mod_lt _ (by decide)) b hm)

/-- A byte outside the run written reads as before. -/
theorem memByte_memWrite_outside (addr : Nat) (v : List Byte) {m : List Host.Cell} (hm : Memory.wf m = true) {x : Nat}
    (hx : ∀ j, j < v.length → x ≠ (addr + j) % arraySize) : memByte (memWrite m addr v) x = memByte m x := by
  induction v generalizing m addr with
  | nil => rfl
  | cons b bs ih =>
    have h0 : x ≠ addr % arraySize := hx 0 (by simp)
    have hr : ∀ j, j < bs.length → x ≠ (addr + 1 + j) % arraySize := by
      intro j hj
      rw [Nat.add_assoc, Nat.add_comm 1 j]
      exact hx (j + 1) (by simpa using hj)
    rw [memWrite, ih _ (setByte_wf (Nat.mod_lt _ (by decide)) b hm) hr, memByte_setByte b hm, if_neg h0]

/-- A run no longer than the array reads back as it was written (20_memory R58, on the array alone). -/
theorem memRead_memWrite (addr : Nat) (v : List Byte) {m : List Host.Cell} (hm : Memory.wf m = true)
    (hv : v.length ≤ arraySize) : memRead (memWrite m addr v) addr v.length = v := by
  induction v generalizing m addr with
  | nil => rfl
  | cons b bs ih =>
    have hw := setByte_wf (Nat.mod_lt addr (by decide : 0 < arraySize)) b hm
    have ho : ∀ j, j < bs.length → addr % arraySize ≠ (addr + 1 + j) % arraySize := by
      intro j hj he
      rw [List.length_cons] at hv
      unfold arraySize at *
      omega
    rw [List.length_cons, memRead, memWrite, memByte_memWrite_outside _ _ hw ho, memByte_setByte b hm, if_pos rfl,
      ih _ hw (by rw [List.length_cons] at hv; omega)]

end Sys2Proof.Machine
end

