-- ==== Sys2Proof/Laws/PerInstr.lean ====
section
/-! SUPPORT. What every command's word and constructor have in common, one lemma for each command. -/

namespace Sys2Proof.Laws.FieldsInWord

/-- The word of a command holds its code in its lowest four bits and nothing of its fields is lost: the four fields of
the word are the command's code, line, address and length (30_encoding R71, R86). -/
def Statement (i : Sys2Proof.Instr) : Prop :=
  (encode i).toNat % 16 = i.code.toNat ∧ fieldCmd (encode i) = i.code ∧ fieldCs (encode i) = i.line ∧
    fieldAddr (encode i) = i.addr ∧ fieldLen (encode i) = i.len

/-- What holds of every packed word. -/
theorem of_packWord (i : Sys2Proof.Instr) : Statement i := by
  refine ⟨?_, fieldCmd_packWord .., fieldCs_packWord .., fieldAddr_packWord .., fieldLen_packWord ..⟩
  rw [← fieldCmd_toNat]
  exact congrArg BitVec.toNat (fieldCmd_packWord ..)

theorem rsten (cs : LineId) (addr : Addr) (len : Len) : Statement (.rsten cs addr len) := of_packWord _

theorem rst (cs : LineId) (addr : Addr) (len : Len) : Statement (.rst cs addr len) := of_packWord _

theorem rdid (cs : LineId) (addr : Addr) (len : Len) : Statement (.rdid cs addr len) := of_packWord _

theorem tglbl (cs : LineId) (addr : Addr) (len : Len) : Statement (.tglbl cs addr len) := of_packWord _

theorem frd (cs : LineId) (addr : Addr) (len : Len) : Statement (.frd cs addr len) := of_packWord _

theorem fwr (cs : LineId) (addr : Addr) (len : Len) : Statement (.fwr cs addr len) := of_packWord _

theorem qen (cs : LineId) (addr : Addr) (len : Len) : Statement (.qen cs addr len) := of_packWord _

theorem qfrd (cs : LineId) (addr : Addr) (len : Len) : Statement (.qfrd cs addr len) := of_packWord _

theorem qfwr (cs : LineId) (addr : Addr) (len : Len) : Statement (.qfwr cs addr len) := of_packWord _

theorem qex (cs : LineId) (addr : Addr) (len : Len) : Statement (.qex cs addr len) := of_packWord _

end Sys2Proof.Laws.FieldsInWord
end

