-- ==== Sys2Proof/Laws/Step.lean ====
section
/-! SUPPORT. Everything one step can do, said once: the inversion lemmas of the sequencer's turn, of an event and of a
step. -/

namespace Sys2Proof.Machine

/-- `b` is `s` but for the fields that only the environment's side of the model uses: the port, the inputs, the draw
count and the STATUS reads. -/
def SameBlock (s b : State) : Prop :=
  b = { s with port := b.port, inputs := b.inputs, drawCount := b.drawCount, statusReads := b.statusReads }

/-- Everything the block can do in one step, from `b`. -/
inductive Did (b : State) : State → Prop where
  /-- nothing -/
  | nothing : Did b b
  /-- a submission rejected while busy (R121) -/
  | rejectedBusy (st : Status) (busy : b.busy = true) (answer : st = .busBusy ∨ st = .invalidModeTransition) :
      Did b (b.rejectBusy st)
  /-- a submission rejected while idle (R122) -/
  | rejectedIdle (st : Status) (idle : b.busy = false) (answer : st = .badArgument ∨ st = .invalidModeTransition) :
      Did b (b.rejectIdle st)
  /-- a command accepted (R120) -/
  | accepted (i : Instr) (idle : b.busy = false) (host : b.port.host < b.params.nHost)
      (checks : idleCheck (infoOf i) i.line i.len b = none) :
      Did b (b.accept (infoOf i) i.line i.addr i.len (expansionOf i b.params b.port.wdata))
  /-- the due micro-op returned `Ok` (R101, R124) -/
  | okOp (op : MicroOp) (v : BitVec 32) (busy : b.busy = true) (due : b.dueOp = some op) (pre : op.pre b = true) :
      Did b (b.okOp op v)
  /-- the due micro-op failed and the recovery ran (R124, R236) -/
  | failed (op : MicroOp) (e : Status) (busy : b.busy = true) (due : b.dueOp = some op) (pre : op.pre b = true)
      (cause : (e = .transportTimeout ∧ b.params.backend ≠ .softwareBitBang) ∨ e = .shortTransfer) :
      Did b ((b.failedOp op).recover e)
  /-- the command completed (R125) -/
  | completed (busy : b.busy = true) (last : b.upc = b.prog.length) : Did b b.complete

theorem sequencerTurn_did {d : Draw} {s t : State} (h : sequencerTurn d s = .next t) : Did s t := by
  unfold sequencerTurn at h
  split at h
  next hb =>
    split at h
    next op ho =>
      split at h
      next hp =>
        cases h
        rcases runOp_cases d hp with ⟨-, h⟩ | h | ⟨hne, h⟩ | h
        · rw [h]; exact .nothing
        · rw [h]; exact .okOp op _ hb ho hp
        · rw [h]; exact .failed op _ hb ho hp (.inl ⟨rfl, hne⟩)
        · rw [h]; exact .failed op _ hb ho hp (.inr rfl)
      next => cases h
    next =>
      split at h
      next hl => cases h; exact .completed hb hl
      next => cases h
  next => cases h; exact .nothing

theorem timerTurn_did {us : Nat} {s t : State} (h : timerTurn us s = .next t) : Did s t := by
  unfold timerTurn at h
  split at h
  next hb =>
    split at h
    next ho =>
      split at h
      next hp =>
        cases h
        unfold runSettle
        split
        · exact .okOp .settle 0 hb ho hp
        · exact .nothing
      next => cases h
    next => cases h; exact .nothing
  next => cases h; exact .nothing

theorem exec_did {i : Instr} {s t : State} (hh : s.port.host < s.params.nHost) (h : exec i s = .next t) : Did s t := by
  rw [exec_eq_submit] at h
  rcases submit_cases h with ⟨hb, rfl⟩ | ⟨hb, st, hc, rfl⟩ | ⟨hb, hc, rfl⟩
  · exact .rejectedBusy _ hb (busyStatus_eq _)
  · exact .rejectedIdle _ hb (idleCheck_eq_some hc)
  · exact .accepted i hb hh hc

theorem submitWord_did {w : CmdWord} {s t : State} (hh : s.port.host < s.params.nHost)
    (h : submitWord w s = .next t) : Did s t := by
  unfold submitWord at h
  split at h
  · exact exec_did hh h
  · cases h
    unfold submitReserved
    split
    next hb => exact .rejectedBusy _ hb (.inl rfl)
    next hb => exact .rejectedIdle _ (by simpa using hb) (.inl rfl)

/-- Everything a step can do: the environment's fields change, then the block does one of the things of `Did`. -/
theorem step_did {s t : State} (h : step s = .next t) : ∃ b, SameBlock s b ∧ Did b t := by
  unfold step turn at h
  split at h
  next =>
    unfold freeTurn at h
    split at h
    next =>
      split at h
      · exact ⟨s.countDraw, rfl, timerTurn_did h⟩
      · exact ⟨s.countDraw, rfl, sequencerTurn_did h⟩
    next => cases h; exact ⟨s, rfl, .nothing⟩
  next e es _ =>
    cases e with
    | submit hst w wd =>
      simp only [takeEvent] at h
      split at h
      next hm =>
        refine ⟨(s.withInputs es).present hst wd, ?_, submitWord_did ?_ h⟩
        · rfl
        · simp only [State.maySubmit, Bool.and_eq_true, decide_eq_true_eq] at hm
          exact hm.1
      next => cases h; exact ⟨s.withInputs es, rfl, .nothing⟩
    | readStatus hst =>
      cases h
      refine ⟨(s.withInputs es).readStatus hst, ?_, .nothing⟩
      unfold State.readStatus
      split <;> rfl
    | transport d => exact ⟨s.withInputs es, rfl, sequencerTurn_did h⟩
    | timer us => exact ⟨s.withInputs es, rfl, timerTurn_did h⟩

end Sys2Proof.Machine
end

