-- ==== Sys2Proof/Laws/Walk.lean ====
section
/-! SUPPORT. How a walk along an expansion goes: two stretches, a stretch of transfers, a whole frame, a frame on every
line; and what a micro-op that meets the walk's conditions does to the pose, the lines and the other fields. -/

namespace Sys2Proof.Machine

theorem walk_append (p : Params) (q : Pose) (a b : List MicroOp) :
    walk p q (a ++ b) = (walk p q a).bind fun q' => walk p q' b := by
  induction a generalizing q with
  | nil => rfl
  | cons op ops ih =>
    simp only [List.cons_append, walk]
    cases q.after p op with
    | none => rfl
    | some q' => exact ih q'

/-- A micro-op that moves bytes under mode `m` (R101). -/
def MicroOp.transfersUnder (op : MicroOp) (m : WireMode) : Bool :=
  match m, op with
  | .spi, .tx8 _ => true
  | .spi, .rx8 => true
  | .spi, .rx32 => true
  | .qspi, .qtx _ => true
  | .qspi, .qrx => true
  | .qspi, .qskip => true
  | _, _ => false

/-- Every micro-op the phase multiplexer gives moves bytes under the mode it was asked for (R113). -/
theorem mux_transfersUnder (ph : Phase) (m : WireMode) : ∀ o ∈ mux ph m, o.transfersUnder m = true := by
  intro o ho
  cases m <;> cases ph <;> simp [mux, addrBytes] at ho <;>
    first
    | (rcases ho with rfl | rfl | rfl <;> rfl)
    | (obtain ⟨_, _, rfl⟩ := ho; rfl)

theorem body_transfersUnder (phases : List Phase) (m : WireMode) : ∀ o ∈ body phases m, o.transfersUnder m = true := by
  intro o ho
  simp only [body, List.mem_flatMap] at ho
  obtain ⟨ph, _, h⟩ := ho
  exact mux_transfersUnder ph m o h

/-- Under a selection, with the pins at `m`, transfers of mode `m` go through and change at most what is in flight. -/
theorem walk_transfers (p : Params) (m : WireMode) (b : List MicroOp) (hb : ∀ o ∈ b, o.transfersUnder m = true)
    (q : Pose) (hs : q.sel = true) (hm : q.pin = m) : ∃ c, walk p q b = some { q with clean := c } := by
  induction b generalizing q with
  | nil => exact ⟨q.clean, rfl⟩
  | cons o os ih =>
    have ho := hb o (by simp)
    have h1 : ∃ c, q.after p o = some { q with clean := c } := by
      cases m <;> cases o <;> simp [MicroOp.transfersUnder] at ho <;>
        (simp only [Pose.after, hs, hm, beq_self_eq_true, Bool.and_self, if_true]
         first
         | exact ⟨q.clean, rfl⟩
         | exact ⟨cleanAfterOutput p.backend q.clean, rfl⟩
         | exact ⟨q.clean, by rw [← hs, ← hm]⟩)
    obtain ⟨c, hc⟩ := h1
    obtain ⟨c', hc'⟩ := ih (fun o h => hb o (by simp [h])) { q with clean := c } hs hm
    exact ⟨c', by simp [walk, hc, hc']⟩

/-- A frame of transfers on a line of the block, begun with none held, the pins at `m` and nothing in flight, goes
through and leaves everything as it was but the last line selected (R118). -/
theorem walk_frame (p : Params) (m : WireMode) (i : LineId) (b : List MicroOp)
    (hb : ∀ o ∈ b, o.transfersUnder m = true) (q : Pose) (hs : q.sel = false) (hm : q.pin = m) (hc : q.clean = true)
    (hi : i.toNat < p.nCs) : walk p q (frame i b) = some { q with id := i } := by
  unfold frame
  rw [walk_append, walk_append]
  simp only [walk, Pose.after, hs, hi, Bool.not_false, decide_true, Bool.and_self, if_true, Option.bind_some]
  obtain ⟨c, h⟩ := walk_transfers p m b hb { q with sel := true, id := i } rfl hm
  rw [h]
  rcases q with ⟨_, _, _, _, _⟩
  simp only [Option.bind_some]
  simp_all

/-- A frame of transfers on each of some lines goes through (R202, R205). -/
theorem walk_frames (p : Params) (m : WireMode) (f : LineId → List MicroOp)
    (hf : ∀ i, ∃ b, f i = frame i b ∧ ∀ o ∈ b, o.transfersUnder m = true) (lines : List LineId)
    (hl : ∀ i ∈ lines, i.toNat < p.nCs) (q : Pose) (hs : q.sel = false) (hm : q.pin = m) (hc : q.clean = true) :
    ∃ j, walk p q (lines.flatMap f) = some { q with id := j } := by
  induction lines generalizing q with
  | nil => exact ⟨q.id, rfl⟩
  | cons i is ih =>
    obtain ⟨b, hb, hx⟩ := hf i
    simp only [List.flatMap_cons, walk_append]
    rw [hb, walk_frame p m i b hx q hs hm hc (hl i (by simp))]
    exact ih (fun i h => hl i (by simp [h])) { q with id := i } hs hm hc

/-- The ranges of the parameters, as propositions (R7). -/
theorem Params.wf_iff (p : Params) :
    p.wf = true ↔
      (1 ≤ p.nCs ∧ p.nCs ≤ 16 ∧ 1 ≤ p.nHost) ∧ (p.qspiWriteOpcode = 0x38 ∨ p.qspiWriteOpcode = 0x02) ∧
        p.exitSequence ≠ [] ∧ (p.readIdPadBytes = 0 ∨ p.readIdPadBytes = 3) := by
  simp [Params.wf, and_assoc]

/-- The lines that a mode transition goes over are lines of the block (R202, R205). -/
theorem mem_allLines {p : Params} (h : p.wf = true) {i : LineId} (hi : i ∈ allLines p) : i.toNat < p.nCs := by
  have hr := (Params.wf_iff p).1 h
  simp only [allLines, List.mem_map, List.mem_range] at hi
  obtain ⟨n, hn, rfl⟩ := hi
  simp
  omega

/-- A micro-op the walk lets through meets its precondition (R101). -/
theorem pre_of_after {s : State} {op : MicroOp} {q : Pose} (h : s.pose.after s.params op = some q) :
    op.pre s = true := by
  cases op <;> simp [Pose.after, State.pose] at h <;> simp_all [MicroOp.pre]

/-- A micro-op the walk lets through leaves the pose the walk says (R101). -/
theorem okOp_pose {s : State} {op : MicroOp} {v : BitVec 32} {q : Pose} (h : s.pose.after s.params op = some q) :
    (s.okOp op v).pose = q := by
  cases op <;> simp [Pose.after, State.pose] at h <;>
    simp_all [State.okOp, State.pose, queueAfter] <;>
    (try (cases hb : s.params.backend <;>
      simp_all [Primitive.output, cleanAfterOutput, wordBytes])) <;>
    aesop

/-- The fields no micro-op that returns `Ok` writes, and how the others count on (R124). -/
theorem okOp_same (s : State) (op : MicroOp) (v : BitVec 32) :
    (s.okOp op v).params = s.params ∧ (s.okOp op v).busy = s.busy ∧ (s.okOp op v).prog = s.prog ∧
      (s.okOp op v).upc = s.upc + 1 ∧ (s.okOp op v).curHost = s.curHost ∧ (s.okOp op v).curCmd = s.curCmd ∧
      (s.okOp op v).curCs = s.curCs ∧ (s.okOp op v).curAddr = s.curAddr ∧ (s.okOp op v).curLen = s.curLen ∧
      (s.okOp op v).wbuf = s.wbuf ∧ (s.okOp op v).lastStatus = s.lastStatus ∧
      (s.okOp op v).responses = s.responses ∧
      (s.okOp op v).rbuf.length = s.rbuf.length + op.bytesRead := by
  cases op <;> simp [State.okOp, MicroOp.bytesRead, wordBytes]

/-- The due micro-op is the first of those left (R123). -/
theorem drop_of_dueOp {s : State} {op : MicroOp} (h : s.dueOp = some op) :
    s.prog.drop s.upc = op :: s.prog.drop (s.upc + 1) := by
  unfold State.dueOp at h
  obtain ⟨hl, rfl⟩ := List.getElem?_eq_some_iff.1 h
  exact List.drop_eq_getElem_cons hl

theorem linesOf_select (n : Nat) (i : LineId) : (linesOf n false i).set i.toNat false = linesOf n true i := by
  simp [linesOf]

theorem linesOf_release (n : Nat) (i : LineId) : (linesOf n true i).set i.toNat true = linesOf n false i := by
  simp only [linesOf, if_true, List.set_set]
  apply List.ext_getElem <;> simp

theorem linesOf_none (n : Nat) (i j : LineId) : linesOf n false i = linesOf n false j := by simp [linesOf]

end Sys2Proof.Machine
end

