-- ==== Sys2Proof/Tests/Slice0.lean ====
section
/-! SUPPORT. The model's own tests: ill-formed terms, words written out from 30_encoding, vectors of 95_test_vectors
(each names its section), and for every statement with hypotheses a witness, a concrete case that meets them all. -/

namespace Sys2Proof.Tests

open Sys2Proof.Machine

/-! ### Helpers -/

/-- Parameters for the tests: two lines, two hosts, lengths up to 3. -/
def params (b : Backend) : Params := { Params.defaults with nHost := 2, backend := b, maxLen := 3 }

/-- An idle block in mode `m`. -/
def idleIn (b : Backend) (m : WireMode) : State := { State.resetWith (params b) with wireMode := m, pinCfg := m }

/-- The state after `n` steps that all answer a next state. -/
def ran (n : Nat) (s : State) : State :=
  match runSteps n s with
  | .next t => t
  | .fault _ => s
  | .refused _ => s

/-- Host 0 has submitted `i` and `n` micro-ops of it have run, each answered `Ok`; `es` are the events to come. -/
def started (b : Backend) (m : WireMode) (i : Instr) (wdata : List Byte) (n : Nat) (es : List Event) : State :=
  (ran (n + 1) ((idleIn b m).withInputs (.submit 0 (encode i) wdata :: List.replicate n (okEvent 0x5D)))).withInputs es

/-- The block with the micro-op `op` due, the transport's answer `d` next, and line 1 held or none. -/
def dueState (b : Backend) (m : WireMode) (held : Bool) (op : MicroOp) (d : Draw) : State :=
  { idleIn b m with
    busy := true
    prog := [op]
    selActive := held
    selId := 1
    csN := linesOf 2 held 1
    inputs := [.transport d] }

/-- The expansion that acceptance of `i` gives an idle block. -/
def expansion (p : Params) (m : WireMode) (i : Instr) (wdata : List Byte) : List MicroOp :=
  match exec i { State.resetWith p with wireMode := m, pinCfg := m, port := { host := 0, wdata := wdata } } with
  | .next t => t.prog
  | .fault _ => []
  | .refused _ => []

/-- The answer to a request of host 0 from `s`, and the STATUS view after it. -/
def answered (s : State) (w : CmdWord) (wdata : List Byte) : Option Status × BitVec 16 :=
  match step (s.withInputs [.submit 0 w wdata]) with
  | .next t => (t.responses.getLast?.map fun r => r.response.status, t.statusView)
  | .fault _ => (none, 0xFFFF)
  | .refused _ => (none, 0xFFFF)

/-- An answer `Ok` with value `v`. -/
def ok (v : BitVec 32) : Draw := { answer := .ok, value := v }

theorem inv_withInputs {s : State} (h : Inv s) (es : List Event) : Inv (s.withInputs es) :=
  ⟨h.params, h.lines, h.selId, h.selBusy, h.idle, h.upc, h.program, h.runs, h.queue, h.host, h.reads, h.writes,
    h.status, h.noTimeout⟩

theorem inv_reset : Inv State.reset := by constructor <;> decide

theorem inv_idle_spi : Inv (idleIn .softwareBitBang .spi) := by constructor <;> decide

theorem inv_idle_qspi : Inv (idleIn .hardwareAssisted .qspi) := by constructor <;> decide

/-! ### Well-formedness: each check refuses an ill-formed term -/

theorem test_control_address_is_ignored :
    (Instr.rsten 0 1 0).wellFormed = false ∧ (Instr.rst 0 1 0).wellFormed = false ∧
      (Instr.rdid 0 1 0).wellFormed = false ∧ (Instr.tglbl 0 1 0).wellFormed = false := by decide

theorem test_control_length_is_ignored :
    (Instr.rsten 0 0 1).wellFormed = false ∧ (Instr.rst 0 0 1).wellFormed = false ∧
      (Instr.rdid 0 0 1).wellFormed = false ∧ (Instr.tglbl 0 0 1).wellFormed = false := by decide

theorem test_transition_fields_are_ignored :
    (Instr.qen 1 0 0).wellFormed = false ∧ (Instr.qen 0 1 0).wellFormed = false ∧
      (Instr.qen 0 0 1).wellFormed = false ∧ (Instr.qex 1 0 0).wellFormed = false ∧
      (Instr.qex 0 1 0).wellFormed = false ∧ (Instr.qex 0 0 1).wellFormed = false := by decide

theorem test_read_fields_are_read :
    (Instr.frd 15 0xFFFFFF 0xFFFFFFFF).wellFormed = true ∧ (Instr.qen 0 0 0).wellFormed = true ∧
      (Instr.rdid 15 0 0).wellFormed = true := by decide

/-! ### Decoding: words written out field by field, LEN ADDR CS CMD (30_encoding R71, R76; 95 section 3.1) -/

theorem test_decode_rsten : decode 0x0000000000000001 = .cmd (.rsten 0 0 0) := by decide

theorem test_decode_rst : decode 0x0000000000000012 = .cmd (.rst 1 0 0) := by decide

theorem test_decode_rdid : decode 0x0000000000000003 = .cmd (.rdid 0 0 0) := by decide

theorem test_decode_tglbl : decode 0x0000000000000014 = .cmd (.tglbl 1 0 0) := by decide

theorem test_decode_frd : decode 0x00000000ABCDEF15 = .cmd (.frd 1 0xABCDEF 0) := by decide

theorem test_decode_fwr : decode 0x0000002000000006 = .cmd (.fwr 0 0 32) := by decide

theorem test_decode_qen : decode 0xFFFFFFFF12345607 = .cmd (.qen 0 0x123456 0xFFFFFFFF) := by decide

theorem test_decode_qfrd : decode 0x0000000412345628 = .cmd (.qfrd 2 0x123456 4) := by decide

theorem test_decode_qfwr : decode 0x0000000100000009 = .cmd (.qfwr 0 0 1) := by decide

theorem test_decode_qex : decode 0x00000000000000FA = .cmd (.qex 15 0 0) := by decide

theorem test_decode_reserved :
    decode 0x0000000000000000 = .reserved 0 ∧ decode 0x000000000000000B = .reserved 0xB ∧
      decode 0xFFFFFFFFFFFFFFFF = .reserved 0xF := by decide

/-- R88 and 95 section 4: the lines of the programs and their words. -/
theorem test_assemble :
    (assemble (.frd 1 0 32)).map Request.word = some 0x0000002000000015 ∧
      (assemble (.qfrd 0 0x10 1)).map Request.word = some 0x0000000100001008 ∧
      (assemble (.fwr 1 0 [0x10, 0x20])).map Request.word = some 0x0000000200000016 ∧
      (resetDev 0).map assemble = [some { word := 1, wdata := [] }, some { word := 2, wdata := [] }] := by decide

theorem test_table_word : decodeTableWord 64 0x00000000ABCDEF15 = some (.frd 1 0xABCDEF 0) ∧
    decodeTableWord 8 0xFFFFFF12 = some (.rst 1 0 0) := by decide

/-! ### Expansions (95 section 3.3) -/

theorem test_expansion_rsten :
    expansion Params.defaults .spi (.rsten 0 0 0) [] = [.sel 0, .tx8 0x66, .drain, .unsel 0] := by decide

theorem test_expansion_rst :
    expansion Params.defaults .spi (.rst 1 0 0) [] = [.sel 1, .tx8 0x99, .drain, .unsel 1, .settle] := by decide

theorem test_expansion_rdid :
    expansion { Params.defaults with readIdPadBytes := 3 } .spi (.rdid 0 0 0) [] =
      [.sel 0, .tx8 0x9F, .tx8 0, .tx8 0, .tx8 0, .rx32, .rx32, .drain, .unsel 0] := by decide

theorem test_expansion_tglbl :
    expansion Params.defaults .spi (.tglbl 0 0 0) [] = [.sel 0, .tx8 0xC0, .drain, .unsel 0] := by decide

theorem test_expansion_frd :
    expansion Params.defaults .spi (.frd 0 0x012345 3) [] =
      [.sel 0, .tx8 0x0B, .tx8 0x01, .tx8 0x23, .tx8 0x45, .tx8 0x00, .rx8, .rx8, .rx8, .drain, .unsel 0] := by decide

theorem test_expansion_fwr :
    expansion Params.defaults .spi (.fwr 1 0 2) [0x10, 0x20] =
      [.sel 1, .tx8 0x02, .tx8 0, .tx8 0, .tx8 0, .tx8 0x10, .tx8 0x20, .drain, .unsel 1] := by decide

theorem test_expansion_qen :
    expansion Params.defaults .spi (.qen 0 0 0) [] =
      [.sel 0, .tx8 0x35, .drain, .unsel 0, .sel 1, .tx8 0x35, .drain, .unsel 1, .pins .qspi, .mode .qspi] := by decide

theorem test_expansion_qfrd :
    expansion Params.defaults .qspi (.qfrd 0 0x000010 4) [] =
      [.sel 0, .qtx 0xEB, .qtx 0, .qtx 0, .qtx 0x10, .qskip, .qskip, .qskip, .qrx, .qrx, .qrx, .qrx, .drain,
        .unsel 0] := by decide

theorem test_expansion_qfwr :
    expansion { Params.defaults with qspiWriteOpcode := 0x02 } .qspi (.qfwr 0 0 1) [0xA5] =
      [.sel 0, .qtx 0x02, .qtx 0, .qtx 0, .qtx 0, .qtx 0xA5, .drain, .unsel 0] := by decide

theorem test_expansion_qex :
    expansion { Params.defaults with nCs := 1, exitSequence := [0xFF, 0xF5] } .qspi (.qex 0 0 0) [] =
      [.sel 0, .qtx 0xFF, .qtx 0xF5, .drain, .unsel 0, .pins .spi, .mode .spi] := by decide

/-- 95 section 3.3, the column of SCLK cycles. -/
theorem test_sclk :
    progSclk (expansion { Params.defaults with readIdPadBytes := 3 } .spi (.rdid 0 0 0) []) = 96 ∧
      progSclk (expansion Params.defaults .spi (.frd 0 0x012345 3) []) = 64 ∧
      progSclk (expansion Params.defaults .qspi (.qfrd 0 0x000010 4) []) = 22 ∧
      progSclk (expansion Params.defaults .qspi (.qfwr 0 0 1) [0xA5]) = 10 ∧
      progSclk (expansion Params.defaults .qspi (.qex 0 0 0) []) = 4 := by decide

/-! ### Acceptance (95 section 3.2) and the STATUS view (95 sections 3.2, 3.5, 3.6) -/

theorem test_checks_in_their_order :
    answered State.reset 0xF0 [] = (some .badArgument, 0x0500) ∧
      answered State.reset 0x25 [] = (some .badArgument, 0x0500) ∧
      answered State.reset 0x28 [] = (some .badArgument, 0x0500) ∧
      answered State.reset 0x0000000200000009 [0x01] = (some .badArgument, 0x0500) ∧
      answered State.reset 0x0000000100000006 [0x01, 0x02] = (some .badArgument, 0x0500) ∧
      answered (idleIn .softwareBitBang .spi) 0x0000000400000005 [] = (some .badArgument, 0x0500) := by decide

theorem test_mode_is_checked_last :
    answered State.reset 0x0000000100000008 [] = (some .invalidModeTransition, 0x0200) ∧
      answered State.reset 0xA [] = (some .invalidModeTransition, 0x0200) ∧
      answered (idleIn .softwareBitBang .qspi) 0x7 [] = (some .invalidModeTransition, 0x0203) := by decide

theorem test_accepted :
    answered State.reset 0xF7 [] = (none, 0x0008) ∧ answered State.reset 0x6 [] = (none, 0x0008) ∧
      answered State.reset 0x3 [0x55] = (none, 0x0008) ∧
      answered (idleIn .softwareBitBang .spi) 0x0000000300000005 [] = (none, 0x0008) := by decide

/-- 95 section 3.2, the busy table: line 0 held by host 1's FRD, `last_status` 0, and what host 0 is answered. -/
theorem test_busy_table :
    let s := { started .softwareBitBang .spi (.frd 0 0 2) [] 1 [] with curHost := 1 }
    answered s 0x13 [] = (some .busBusy, 0x000C) ∧ answered s 0x0 [] = (some .busBusy, 0x000C) ∧
      answered s 0x0000000100000055 [] = (some .busBusy, 0x000C) ∧
      answered s 0x7 [] = (some .invalidModeTransition, 0x000C) ∧
      answered s 0xA [] = (some .invalidModeTransition, 0x000C) := by decide

/-- 95 section 3.5: STATUS through an FRD on line 1. -/
theorem test_status_through_a_frame :
    (started .softwareBitBang .spi (.frd 1 0 0) [] 0 []).statusView = 0x0008 ∧
      (started .softwareBitBang .spi (.frd 1 0 0) [] 1 []).statusView = 0x001C ∧
      (started .softwareBitBang .spi (.frd 1 0 0) [] 8 []).statusView = 0x0018 ∧
      (started .softwareBitBang .spi (.frd 1 0 0) [] 9 []).statusView = 0x0010 := by decide

/-- 95 section 3.6: STATUS through a QEN on two lines. -/
theorem test_status_through_enter :
    (started .softwareBitBang .spi (.qen 0 0 0) [] 8 []).statusView = 0x0018 ∧
      (started .softwareBitBang .spi (.qen 0 0 0) [] 9 []).statusView = 0x001A ∧
      (started .softwareBitBang .spi (.qen 0 0 0) [] 11 []).statusView = 0x0013 := by decide

/-! ### Bit level (95 section 3.4) and read-id (95 section 2, L1-2, and section 3.8) -/

theorem test_spi_bits :
    (xbCycles 0x9F 0x5D).map (fun c => c.sio0.out) = [true, false, false, true, true, true, true, true].map some ∧
      (xbCycles 0x9F 0x5D).map (fun c => c.sio1.inp) = [false, true, false, true, true, true, false, true].map some := by
  decide

theorem test_nibble_bits :
    (wnpCycles 0xEB).map (fun c => [c.sio3.out, c.sio2.out, c.sio1.out, c.sio0.out]) =
        [[some true, some true, some true, some false], [some true, some false, some true, some true]] ∧
      (rnpCycles 0xC3).map (fun c => [c.sio3.inp, c.sio2.inp, c.sio1.inp, c.sio0.inp]) =
        [[some true, some true, some false, some false], [some false, some false, some true, some true]] := by decide

theorem test_read_id :
    vendorKgdOf 0x5D0D0123456789AB = 0x5D0D ∧ eidOf 0x5D0D0123456789AB = 0x0123456789AB ∧
      vendorKgdOf 0x0000FFFFFFFFFFFF = 0 ∧ eidOf 0x0000FFFFFFFFFFFF = 0xFFFFFFFFFFFF ∧
      idOfBytes [0x5D, 0x0D, 0x01, 0x23, 0x45, 0x67, 0x89, 0xAB] = 0x5D0D0123456789AB := by decide

/-! ### One micro-op each -/

/-- 40_transport_and_phases R101: `RX32` appends the four bytes, the highest first (95 section 3.4). -/
theorem test_rx32_bytes :
    (ran 1 (dueState .softwareBitBang .spi true .rx32 (ok 0x5D0D0123))).rbuf = [0x5D, 0x0D, 0x01, 0x23] := by decide

/-- 95 section 3.7, E6: `Short` on the opcode of RSTEN. -/
theorem test_short_recovers :
    let t := ran 1 (started .softwareBitBang .spi (.rsten 0 0 0) [] 1 [.transport { answer := .short, value := 0 }])
    t.statusView = 0x0400 ∧ t.csN = [true, true] ∧
      t.responses = [{ host := 0, response := plainResponse .shortTransfer [] }] := by decide

/-- 95 section 3.7, E1: `Timeout` on HardwareAssisted keeps the bytes already read. -/
theorem test_timeout_keeps_bytes :
    let t := ran 1 (started .hardwareAssisted .spi (.frd 0 0 2) [] 7 [.transport { answer := .timeout, value := 0 }])
    t.statusView = 0x0300 ∧ t.responses = [{ host := 0, response := plainResponse .transportTimeout [0x5D] }] := by
  decide

/-! ### Witnesses: for each statement with hypotheses, cases that meet them all, clause by clause -/

/-- Words at the ends of the range of codes: the reserved 0 and B, and the commands 1 and A. -/
theorem witness_EncodeOfDecodeIsTheWord :
    decode 0x1 = .cmd (.rsten 0 0 0) ∧ decode 0xA = .cmd (.qex 0 0 0) ∧ decode 0x0 = .reserved 0 ∧
      decode 0xB = .reserved 0xB := by decide

/-- Every clause of DecodeReadsTheCommandAndItsFields: a word with each code, every field at its greatest. -/
theorem witness_DecodeReadsTheCommandAndItsFields :
    ∀ k : Fin 16,
      let w : CmdWord := 0xFFFFFFFFFFFFFFF0 ||| BitVec.ofNat 64 k.val
      (15 : LineId).toNat = w.toNat / 16 % 16 ∧ (0xFFFFFF : Addr).toNat = w.toNat / 256 % 2 ^ 24 ∧
        (0xFFFFFFFF : Len).toNat = w.toNat / 2 ^ 32 ∧ w.toNat % 16 = k.val := by decide

/-- Operands at the ends of their ranges, and one past them. -/
theorem witness_AssembledLinesAreTheirWords :
    (assemble (.rdid 15)).isSome = true ∧ assemble (.rdid 16) = none ∧
      (assemble (.frd 15 0xFFFFFF (2 ^ 32 - 1))).isSome = true ∧ assemble (.frd 0 0x1000000 0) = none ∧
      assemble (.frd 0 0 (2 ^ 32)) = none ∧ (assemble (.fwr 15 0xFFFFFF [])).isSome = true ∧
      assemble (.qfwr 0 0x1000000 []) = none ∧ (assemble .qex).isSome = true := by decide

theorem witness_InvariantHoldsAtReset :
    Params.defaults.wf = true ∧ { Params.defaults with nCs := 1 }.wf = true ∧
      { Params.defaults with nCs := 16, readIdPadBytes := 3, qspiWriteOpcode := 0x02 }.wf = true := by decide

/-- A selection held in the middle of an FRD on the last line. -/
theorem inv_reading : Inv (started .hardwareAssisted .spi (.frd 1 0 3) [] 8 [.transport (ok 0x11)]) := by
  constructor <;> decide

/-- QEN with its `MODE` due. -/
theorem inv_entering : Inv (started .softwareBitBang .spi (.qen 0 0 0) [] 9 [.transport (ok 0)]) := by
  constructor <;> decide

/-- QEX with its `MODE` due. -/
theorem inv_leaving : Inv (started .softwareBitBang .qspi (.qex 0 0 0) [] 9 [.transport (ok 0)]) := by
  constructor <;> decide

/-- A QFRD about to be cut short. -/
theorem inv_cut :
    Inv (started .softwareBitBang .qspi (.qfrd 0 0 1) [] 2 [.transport { answer := .short, value := 0 }]) := by
  constructor <;> decide

theorem witness_StepKeepsTheInvariant :
    let s := started .hardwareAssisted .spi (.frd 1 0 3) [] 8 [.transport (ok 0x11)]
    Inv s ∧ ∃ t, step s = .next t := ⟨inv_reading, _, rfl⟩

theorem witness_InvariantStatesNeverStop :
    let s := started .hardwareAssisted .spi (.frd 1 0 3) [] 8 [.transport (ok 0x11)]
    Inv s ∧ s.busy = true ∧ s.selActive = true := ⟨inv_reading, by decide, by decide⟩

/-- A reachable state that holds line 1, and one that holds none. -/
theorem witness_ReachableSelectionIsExclusive :
    let s := ran 2 ((State.resetWith (params .softwareBitBang)).withInputs
      [.submit 0 (encode (.frd 1 0 0)) [], .transport (ok 0)])
    Reachable s ∧ s.selActive = true ∧ lowLines s.csN = 1 ∧ Reachable State.reset ∧ State.reset.selActive = false :=
  ⟨⟨params .softwareBitBang, [.submit 0 (encode (.frd 1 0 0)) [], .transport (ok 0)], 2, by decide, rfl⟩,
    by decide, by decide, ⟨Params.defaults, [], 0, by decide, rfl⟩, by decide⟩

/-- The three ways the wire mode changes. -/
theorem witness_OnlyTransitionsAndRecoveryChangeTheMode :
    (let s := started .softwareBitBang .spi (.qen 0 0 0) [] 9 [.transport (ok 0)];
      Inv s ∧ step s = .next (ran 1 s) ∧ (ran 1 s).wireMode ≠ s.wireMode) ∧
    (let s := started .softwareBitBang .qspi (.qex 0 0 0) [] 9 [.transport (ok 0)];
      Inv s ∧ step s = .next (ran 1 s) ∧ (ran 1 s).wireMode ≠ s.wireMode) ∧
    (let s := started .softwareBitBang .qspi (.qfrd 0 0 1) [] 2 [.transport { answer := .short, value := 0 }];
      Inv s ∧ step s = .next (ran 1 s) ∧ (ran 1 s).wireMode ≠ s.wireMode) :=
  ⟨⟨inv_entering, rfl, by decide⟩, ⟨inv_leaving, rfl, by decide⟩, ⟨inv_cut, rfl, by decide⟩⟩

/-- Steps that change each of the fields R36 speaks of. -/
theorem witness_StepWritesOnlyWhatR36Lists :
    (let s := dueState .softwareBitBang .spi false (.sel 0) (ok 0);
      step s = .next (ran 1 s) ∧ (ran 1 s).selActive ≠ s.selActive ∧ (ran 1 s).csN ≠ s.csN ∧
        (ran 1 s).selId ≠ s.selId ∧ (ran 1 s).upc ≠ s.upc) ∧
    (let s := dueState .softwareBitBang .spi false (.pins .qspi) (ok 0);
      step s = .next (ran 1 s) ∧ (ran 1 s).pinCfg ≠ s.pinCfg) ∧
    (let s := dueState .softwareBitBang .spi true .rx8 (ok 1);
      step s = .next (ran 1 s) ∧ (ran 1 s).rbuf ≠ s.rbuf) ∧
    (let s := dueState .softwareBitBang .qspi true .qrx { answer := .short, value := 0 };
      step s = .next (ran 1 s) ∧ (ran 1 s).lastStatus ≠ s.lastStatus ∧ (ran 1 s).wireMode ≠ s.wireMode ∧
        (ran 1 s).prog ≠ s.prog) ∧
    (let s := (idleIn .softwareBitBang .spi).withInputs [.submit 1 (encode (.fwr 1 7 1)) [9]];
      step s = .next (ran 1 s) ∧ (ran 1 s).curHost ≠ s.curHost ∧ (ran 1 s).curCmd ≠ s.curCmd ∧
        (ran 1 s).wbuf ≠ s.wbuf ∧ (ran 1 s).busy ≠ s.busy) :=
  ⟨⟨rfl, by decide⟩, ⟨rfl, by decide⟩, ⟨rfl, by decide⟩, ⟨rfl, by decide⟩, ⟨rfl, by decide⟩⟩

/-- Host 1, the last, submits any word (a QEN, a reserved word) while host 0's command runs. -/
theorem witness_SubmissionWhileBusyIsRejected (w : CmdWord) :
    let s := started .softwareBitBang .spi (.frd 0 0 2) [] 1 [.submit 1 w []]
    s.busy = true ∧ 1 < s.params.nHost ∧ s.curHost ≠ 1 ∧ s.inputs = [.submit 1 w []] :=
  ⟨rfl, (by decide : 1 < 2), (by decide : 0 ≠ 1), rfl⟩

/-- A word for each check in turn, and one that passes them all, from an idle block. -/
theorem witness_SubmissionWhileIdleIsDecidedByTheChecks :
    let s := idleIn .softwareBitBang .spi
    s.busy = false ∧ 1 < s.params.nHost ∧
      answerTo s 0xB [] = some .badArgument ∧ answerTo s 0x23 [] = some .badArgument ∧
      answerTo s 0x0000000400000005 [] = some .badArgument ∧ answerTo s 0x0000000300000006 [1, 2] = some .badArgument ∧
      answerTo s 0xA [] = some .invalidModeTransition ∧ answerTo s 0x0000000300000015 [] = none ∧
      answerTo s 0x0000000300000006 [1, 2, 3] = none :=
  ⟨by decide, by decide, by decide, by decide, by decide, by decide, by decide, by decide, by decide⟩

theorem witness_WaitingHostSubmitsNothing :
    (let s := started .softwareBitBang .spi (.frd 0 0 2) [] 1 [.submit 0 0x3 []];
      (s.busy = true ∧ s.curHost = 0) ∧ s.inputs = [.submit 0 0x3 []]) ∧
    (let s := (idleIn .softwareBitBang .spi).withInputs [.submit 2 0x3 []];
      s.params.nHost ≤ 2 ∧ s.inputs = [.submit 2 0x3 []]) := by decide

theorem witness_FirstOfTwoHostsIsAccepted :
    let s := (idleIn .softwareBitBang .spi).withInputs [.submit 1 0x13 [], .submit 0 0x7 []]
    s.busy = false ∧ 1 < s.params.nHost ∧ 0 < s.params.nHost ∧ answerTo s 0x13 [] = none ∧
      s.inputs = [.submit 1 0x13 [], .submit 0 0x7 []] := by decide

theorem witness_StepRunsTheDecodedCommand :
    (let s := (idleIn .softwareBitBang .spi).withInputs [.submit 1 0x13 []];
      1 < s.params.nHost ∧ ¬(s.busy = true ∧ s.curHost = 1) ∧ s.inputs = [.submit 1 0x13 []] ∧
        decode 0x13 = .cmd (.rdid 1 0 0)) ∧
    State.reset.busy = false ∧ 0 < State.reset.params.nHost ∧ decodeTableWord 64 0x13 = some (.rdid 1 0 0) := by
  decide

/-- The hypotheses of the acceptance statements that need SPI (RSTEN, RST, RDID, TGLBL, FRD, FWR, QEN), at the last line
and the greatest length. -/
theorem witness_accepted_under_spi :
    let s := { idleIn .softwareBitBang .spi with port := { host := 0, wdata := [1, 2, 3] } }
    s.busy = false ∧ s.wireMode = .spi ∧ (1 : LineId).toNat < s.params.nCs ∧
      (3 : Len).toNat ≤ s.params.maxLen.toNat ∧ s.port.wdata.length = (3 : Len).toNat := by decide

/-- The hypotheses of the acceptance statements that need QSPI (QFRD, QFWR, QEX). -/
theorem witness_accepted_under_qspi :
    let s := { idleIn .hardwareAssisted .qspi with port := { host := 1, wdata := [1, 2, 3] } }
    s.busy = false ∧ s.wireMode = .qspi ∧ (1 : LineId).toNat < s.params.nCs ∧
      (3 : Len).toNat ≤ s.params.maxLen.toNat ∧ s.port.wdata.length = (3 : Len).toNat := by decide

theorem witness_IgnoredFieldsHaveNoEffect :
    let s := started .softwareBitBang .spi (.rdid 0 0 0) [] 3 [.transport (ok 0)]
    step s = .next (ran 1 s) := rfl

theorem witness_SelectAndReleaseMoveOneLine :
    (let s := dueState .softwareBitBang .spi false (.sel 1) (ok 0);
      s.dueWith (.sel 1) (ok 0) [] ∧ s.selActive = false) ∧
    (let s := dueState .softwareBitBang .spi true (.unsel 1) (ok 0);
      s.dueWith (.unsel 1) (ok 0) [] ∧ s.selActive = true ∧ s.selId = 1) :=
  ⟨⟨⟨by decide, by decide, by decide⟩, by decide⟩, ⟨⟨by decide, by decide, by decide⟩, by decide, by decide⟩⟩

theorem witness_SpiTransfersMoveTheirBytes :
    ∀ op ∈ [MicroOp.tx8 0x9F, .rx8, .rx32],
      let s := dueState .hardwareAssisted .spi true op (ok 0x5D0D0123)
      s.pinCfg = .spi ∧ s.selActive = true ∧ s.busy = true ∧ s.dueOp = some op ∧
        s.inputs = .transport (ok 0x5D0D0123) :: [] := by decide

theorem witness_QspiTransfersMoveTheirBytes :
    ∀ op ∈ [MicroOp.qtx 0xEB, .qrx, .qskip],
      let s := dueState .hardwareAssisted .qspi true op (ok 0xC3)
      s.pinCfg = .qspi ∧ s.selActive = true ∧ s.busy = true ∧ s.dueOp = some op ∧
        s.inputs = .transport (ok 0xC3) :: [] := by decide

theorem witness_PinsModeAndDrainTakeEffect :
    (let s := dueState .softwareBitBang .spi false (.pins .qspi) (ok 0);
      s.busy = true ∧ s.dueOp = some (.pins .qspi) ∧ s.selActive = false) ∧
    (let s := dueState .softwareBitBang .qspi false (.mode .qspi) (ok 0);
      s.busy = true ∧ s.dueOp = some (.mode .qspi) ∧ s.selActive = false ∧ s.pinCfg = .qspi) ∧
    (let s := dueState .softwareBitBang .spi true .drain { answer := .timeout, value := 0 };
      s.busy = true ∧ s.dueOp = some .drain ∧ s.params.backend = .softwareBitBang) ∧
    (let s := dueState .hardwareAssisted .spi true .drain (ok 0);
      s.busy = true ∧ s.dueOp = some .drain ∧ (ok 0).answer = .ok) := by decide

/-- The timer's report at the minimum, one below it, and a turn of the sequencer. -/
theorem witness_SettleEndsOnlyAfterTheMinimum :
    let s := dueState .softwareBitBang .spi false .settle (ok 0)
    s.busy = true ∧ s.dueOp = some .settle ∧ s.selActive = false ∧ s.params.resetSettleMinUs ≤ 10000 ∧
      9999 < s.params.resetSettleMinUs ∧ (s.withInputs [.timer 10000]).inputs = [.timer 10000] ∧
      s.inputs = [.transport (ok 0)] := by decide

theorem witness_FailureRunsTheRecovery :
    (let d : Draw := { answer := .short, value := 0 };
      let s := dueState .softwareBitBang .qspi true .qskip d;
      s.dueWith .qskip d [] ∧ MicroOp.qskip.pre s = true ∧ MicroOp.qskip.primitive = some .rnp) ∧
    (let d : Draw := { answer := .timeout, value := 0 };
      let s := dueState .hardwareAssisted .spi true (.tx8 0x35) d;
      s.dueWith (.tx8 0x35) d [] ∧ (MicroOp.tx8 0x35).pre s = true ∧ (MicroOp.tx8 0x35).primitive = some (.xb 0x35) ∧
        s.params.backend = .hardwareAssisted) ∧
    (let d : Draw := { answer := .timeout, value := 0 };
      let s := dueState .hardwareAssisted .spi true .drain d;
      s.dueWith .drain d [] ∧ MicroOp.drain.pre s = true ∧ s.params.backend = .hardwareAssisted) :=
  ⟨⟨⟨by decide, by decide, by decide⟩, by decide, by decide⟩,
    ⟨⟨by decide, by decide, by decide⟩, by decide, by decide, by decide⟩,
    ⟨⟨by decide, by decide, by decide⟩, by decide, by decide⟩⟩

/-- Every clause of FailedPreconditionFaults, and the stop it speaks of. -/
theorem witness_FailedPreconditionFaults :
    (let s := dueState .softwareBitBang .spi true (.sel 0) (ok 0);
      s.selActive = true ∧ step s = .fault .internalPrecondition) ∧
    (let s := dueState .softwareBitBang .spi true (.unsel 0) (ok 0);
      s.selId ≠ 0 ∧ step s = .fault .internalPrecondition) ∧
    (let s := dueState .softwareBitBang .qspi true .rx8 (ok 0);
      s.pinCfg = .qspi ∧ step s = .fault .internalPrecondition) ∧
    (let s := dueState .softwareBitBang .qspi false .qskip (ok 0);
      s.selActive = false ∧ step s = .fault .internalPrecondition) ∧
    (let s := dueState .softwareBitBang .qspi true .settle (ok 0);
      s.selActive = true ∧ step s = .fault .internalPrecondition) ∧
    (let s := dueState .softwareBitBang .spi false (.mode .qspi) (ok 0);
      s.pinCfg ≠ .qspi ∧ step s = .fault .internalPrecondition) :=
  ⟨⟨by decide, rfl⟩, ⟨by decide, rfl⟩, ⟨by decide, rfl⟩, ⟨by decide, rfl⟩, ⟨by decide, rfl⟩, ⟨by decide, rfl⟩⟩

/-- A run on SoftwareBitBang in which the transport was asked to time out; its last step adds a response, from a state
that shows no timeout. -/
theorem witness_SoftwareBitBangNeverTimesOut :
    let es : List Event := [.submit 0 (encode (.frd 1 0 0)) [], .transport (ok 0),
      .transport { answer := .timeout, value := 0 }, .transport { answer := .short, value := 0 }]
    let r := ran 3 ((State.resetWith (params .softwareBitBang)).withInputs es)
    let s := ran 4 ((State.resetWith (params .softwareBitBang)).withInputs es)
    (r.params.backend = .softwareBitBang ∧ r.NoTimeoutShown ∧ step r = .next s) ∧
      Reachable s ∧ s.params.backend = .softwareBitBang ∧ s.responses ≠ [] :=
  ⟨⟨by decide, ⟨by decide, by decide⟩, rfl⟩, ⟨params .softwareBitBang,
    [.submit 0 (encode (.frd 1 0 0)) [], .transport (ok 0), .transport { answer := .timeout, value := 0 },
      .transport { answer := .short, value := 0 }], 4, by decide, rfl⟩, by decide, by decide⟩

/-- An RDID and an FRD with their completion due. -/
theorem witness_CompletionResponds :
    (let s := started .softwareBitBang .spi (.rdid 1 0 0) [] 6 [.transport (ok 0)];
      s.busy = true ∧ s.upc = s.prog.length ∧ s.inputs = [.transport (ok 0)] ∧ s.curCmd = 0x3 ∧
        s.rbuf = [0, 0, 0, 0x5D, 0, 0, 0, 0x5D]) ∧
    (let s := started .softwareBitBang .spi (.frd 1 0 0) [] 8 [.transport (ok 0)];
      s.busy = true ∧ s.upc = s.prog.length ∧ s.inputs = [.transport (ok 0)] ∧ s.curCmd ≠ 0x3) := by decide

theorem witness_StatusViewPacksAndReadsFreely :
    let s := (idleIn .softwareBitBang .spi).withInputs [.readStatus 1]
    1 < s.params.nHost ∧ s.inputs = [.readStatus 1] := by decide

theorem witness_UnlistedAnswersAreFree :
    (let s := idleIn .softwareBitBang .spi; s.inputs = [] ∧ s.busy = false) ∧
    (let s := started .softwareBitBang .spi (.rst 0 0 0) [] 4 [];
      s.inputs = [] ∧ s.busy = true ∧ s.dueOp = some .settle) ∧
    (let s := started .softwareBitBang .spi (.rst 0 0 0) [] 5 [];
      s.inputs = [] ∧ s.busy = true ∧ s.dueOp = some .settle) ∧
    (let s := started .softwareBitBang .spi (.rst 0 0 0) [] 1 [];
      s.inputs = [] ∧ s.busy = true ∧ s.dueOp ≠ some .settle) := by decide

/-- For ExpansionLengthsAreTheTables, ExpansionSclkIsTheTables and FramesOpenWithTableOpcodes: an accepted command of
each mode from an idle block. -/
theorem witness_accepted_expansions :
    (let s := { idleIn .softwareBitBang .qspi with port := { host := 0, wdata := [1, 2, 3] } };
      s.params.wf = true ∧ s.busy = false ∧
        ∃ t, exec (.qfwr 1 0xFFFFFF 3) s = .next t ∧ t.busy = true ∧
          t.prog = [] ++ .sel 1 :: [.qtx 0x38, .qtx 0xFF, .qtx 0xFF, .qtx 0xFF, .qtx 1, .qtx 2, .qtx 3, .drain,
            .unsel 1]) ∧
    (let s := idleIn .softwareBitBang .spi;
      s.params.wf = true ∧ s.busy = false ∧
        ∃ t, exec (.qen 15 0 0) s = .next t ∧ t.busy = true ∧
          t.prog = [.sel 0, .tx8 0x35, .drain, .unsel 0] ++ .sel 1 :: [.tx8 0x35, .drain, .unsel 1, .pins .qspi,
            .mode .qspi]) :=
  ⟨⟨by decide, by decide, _, rfl, by decide, by decide⟩, ⟨by decide, by decide, _, rfl, by decide, by decide⟩⟩

/-- `UNSEL`, `PINS`, `MODE` and `SETTLE` due in states with the invariants. -/
theorem witness_UnselAndPinsAreDueOnlyAfterTheDrain :
    (let s := started .hardwareAssisted .spi (.rst 1 0 0) [] 3 [];
      Inv s ∧ s.busy = true ∧ s.dueOp = some (.unsel 1)) ∧
    (let s := started .hardwareAssisted .spi (.rst 1 0 0) [] 4 [];
      Inv s ∧ s.busy = true ∧ s.dueOp = some .settle) ∧
    (let s := started .hardwareAssisted .spi (.qen 0 0 0) [] 8 [];
      Inv s ∧ s.busy = true ∧ s.dueOp = some (.pins .qspi)) ∧
    (let s := started .hardwareAssisted .spi (.qen 0 0 0) [] 9 [];
      Inv s ∧ s.busy = true ∧ s.dueOp = some (.mode .qspi)) :=
  ⟨⟨by constructor <;> decide, by decide, by decide⟩, ⟨by constructor <;> decide, by decide, by decide⟩,
    ⟨by constructor <;> decide, by decide, by decide⟩, ⟨by constructor <;> decide, by decide, by decide⟩⟩

/-- A just accepted RST: its answers end with the timer's report. -/
theorem inv_accepted : Inv (started .softwareBitBang .spi (.rst 1 0 0) [] 0 []) := by constructor <;> decide

theorem witness_AcceptedExpansionRunsToCompletion :
    let s := started .softwareBitBang .spi (.rst 1 0 0) [] 0 []
    let t := s.withInputs (answerEvents s.params (okDraws fun _ => 0) s.prog ++ [])
    Inv t ∧ t.busy = true ∧ t.upc = 0 ∧ t.rbuf = [] ∧
      t.inputs = answerEvents t.params (okDraws fun _ => 0) t.prog ++ [] :=
  ⟨inv_withInputs inv_accepted _, by decide, by decide, by decide, rfl⟩

/-- An FRD on HardwareAssisted whose drain will time out. -/
theorem witness_EveryAcceptedCommandEnds :
    let s := started .hardwareAssisted .spi (.frd 1 0 3) [] 8 [.transport (ok 0x11)]
    let d : Nat → Draw := fun n => { answer := if n = 1 then .timeout else .ok, value := 0 }
    let t := s.withInputs (answerEvents s.params d (s.prog.drop s.upc) ++ [])
    Inv t ∧ t.busy = true ∧ t.inputs = answerEvents t.params d (t.prog.drop t.upc) ++ [] :=
  ⟨inv_withInputs inv_reading _, by decide, rfl⟩

/-- The hypotheses on the state that the runs from submission to response share, under SPI, at the last host, the last
line and the greatest length; the events are then those each statement lists, which no hypothesis restricts but the
timer's reports (10000 for RST's response, 0 and 9999 for reports that are too short) and the lists' lengths. -/
theorem witness_runs_under_spi (es : List Event) :
    let s := (idleIn .softwareBitBang .spi).withInputs es
    Inv s ∧ s.busy = false ∧ s.wireMode = .spi ∧ 1 < s.params.nHost ∧ (1 : LineId).toNat < s.params.nCs ∧
      (3 : Len).toNat ≤ s.params.maxLen.toNat ∧ s.params.resetSettleMinUs ≤ 10000 ∧
      (∀ r ∈ [0, 9999], r < s.params.resetSettleMinUs) ∧
      ([] : List (BitVec 32)).length = s.params.readIdPadBytes ∧ [(1 : BitVec 32), 2, 3].length = (3 : Len).toNat ∧
      s.inputs = es :=
  ⟨inv_withInputs inv_idle_spi es, rfl, rfl, (by decide : 1 < 2), (by decide : 1 < 2), (by decide : 3 ≤ 3),
    (by decide : 10000 ≤ 10000), (by decide : ∀ r ∈ [0, 9999], r < 10000), rfl, rfl, rfl⟩

/-- The same under QSPI. -/
theorem witness_runs_under_qspi (es : List Event) :
    let s := (idleIn .hardwareAssisted .qspi).withInputs es
    Inv s ∧ s.busy = false ∧ s.wireMode = .qspi ∧ 1 < s.params.nHost ∧ (1 : LineId).toNat < s.params.nCs ∧
      (3 : Len).toNat ≤ s.params.maxLen.toNat ∧ [(1 : BitVec 32), 2, 3].length = (3 : Len).toNat ∧ s.inputs = es :=
  ⟨inv_withInputs inv_idle_qspi es, rfl, rfl, (by decide : 1 < 2), (by decide : 1 < 2), (by decide : 3 ≤ 3), rfl, rfl⟩

/-- A bench in mode `m` with a device on each line. -/
def bench (b : Backend) (m : WireMode) (script : List Event) : Bench :=
  { Bench.start (params b) [0x5D0D0123456789AB, 0x5D52000000000001] script with
    blk := idleIn b m
    devs := [{ Device.start 0x5D0D0123456789AB with mode := m }, { Device.start 0x5D52000000000001 with mode := m }] }

theorem witness_RoundTripUnderSpi :
    let b := bench .softwareBitBang .spi
      [.submit 1 (encode (.fwr 1 0xFFFFFF 3)) [1, 0, 2], .submit 1 (encode (.frd 1 0xFFFFFF 3)) []]
    let dev := { Device.start 0x5D52000000000001 with mode := .spi }
    Inv b.blk ∧ b.blk.busy = false ∧ b.blk.wireMode = .spi ∧ 1 < b.blk.params.nHost ∧
      (1 : LineId).toNat < b.blk.params.nCs ∧ (3 : Len).toNat ≤ b.blk.params.maxLen.toNat ∧
      [(1 : Byte), 0, 2].length = (3 : Len).toNat ∧ [(1 : Byte), 0, 2].length ≤ arraySize ∧
      b.devs[(1 : LineId).toNat]? = some dev ∧ dev.known = true ∧ dev.mode = .spi ∧ Memory.wf dev.mem = true ∧
      b.inject = none :=
  ⟨inv_idle_spi, by decide, by decide, by decide, by decide, by decide, by decide, by decide, by decide, by decide,
    by decide, by decide, by decide⟩

theorem witness_RoundTripUnderQspi :
    let b := bench .hardwareAssisted .qspi
      [.submit 1 (encode (.qfwr 1 0xFFFFFF 3)) [1, 0, 2], .submit 1 (encode (.qfrd 1 0xFFFFFF 3)) []]
    let dev := { Device.start 0x5D52000000000001 with mode := .qspi }
    Inv b.blk ∧ b.blk.busy = false ∧ b.blk.wireMode = .qspi ∧ 1 < b.blk.params.nHost ∧
      (1 : LineId).toNat < b.blk.params.nCs ∧ (3 : Len).toNat ≤ b.blk.params.maxLen.toNat ∧
      [(1 : Byte), 0, 2].length = (3 : Len).toNat ∧ [(1 : Byte), 0, 2].length ≤ arraySize ∧
      b.devs[(1 : LineId).toNat]? = some dev ∧ dev.known = true ∧ dev.mode = .qspi ∧ Memory.wf dev.mem = true ∧
      b.inject = none ∧ b.blk.params.exitSequence.head? ≠ some b.blk.params.qspiWriteOpcode :=
  ⟨inv_idle_qspi, by decide, by decide, by decide, by decide, by decide, by decide, by decide, by decide, by decide,
    by decide, by decide, by decide, by decide⟩

end Sys2Proof.Tests
end

/-! SUPPORT. What a micro-op that returned `Ok`, a failed one and the recovery leave in the fields of the block, field
by field; what a step with a due micro-op does; what the lines of a selection look like. -/

namespace Sys2Proof.Machine

section
variable (s : State) (op : MicroOp) (v : BitVec 32)

/-- `MODE` alone writes the wire mode (R21, R109). -/
theorem okOp_wireMode : (s.okOp op v).wireMode = s.wireMode ∨ op = .mode (s.okOp op v).wireMode := by
  cases op <;> simp [State.okOp]

/-- `PINS` alone writes the pin configuration (R22, R107). -/
theorem okOp_pinCfg : (s.okOp op v).pinCfg = s.pinCfg ∨ op = .pins (s.okOp op v).pinCfg := by
  cases op <;> simp [State.okOp]

/-- `SEL` and `UNSEL` alone write the lines and the selection, and `SEL` alone writes `sel_id` (R23 to R25). -/
theorem okOp_selection :
    (∃ i, op = .sel i) ∨
    (s.okOp op v).selId = s.selId ∧
      ((∃ i, op = .unsel i) ∨ (s.okOp op v).selActive = s.selActive ∧ (s.okOp op v).csN = s.csN) := by
  cases op <;> simp [State.okOp]

/-- `RX8`, `RX32` and `QRX` alone write `rbuf` (R29). -/
theorem okOp_rbuf : (s.okOp op v).rbuf = s.rbuf ∨ op = .rx8 ∨ op = .rx32 ∨ op = .qrx := by
  cases op <;> simp [State.okOp]

/-- A block without a queue has none after a micro-op either (R108). -/
theorem okOp_inFlight (hb : s.params.backend = .softwareBitBang) (hq : s.inFlight = []) :
    (s.okOp op v).inFlight = [] := by
  cases op <;> simp [State.okOp, queueAfter, hb, hq]

/-- A micro-op that fails writes nothing but the wire trace before the recovery begins (R237). -/
theorem failedOp_eq : ∃ w, s.failedOp op = { s with wire := w } := by
  cases op <;> exact ⟨_, rfl⟩

end

/-- After a micro-op the walk lets through, the lines are still those of the selection (R25, R141, R142). -/
theorem okOp_lines {s : State} {op : MicroOp} {q : Pose} (v : BitVec 32) (h : s.pose.after s.params op = some q)
    (hl : s.csN = linesOf s.params.nCs s.selActive s.selId) :
    (s.okOp op v).csN = linesOf s.params.nCs (s.okOp op v).selActive (s.okOp op v).selId := by
  have hp := pre_of_after h
  cases op with
  | sel i =>
    have ha : s.selActive = false := by simpa [MicroOp.pre] using hp
    show s.csN.set i.toNat false = linesOf s.params.nCs true i
    rw [hl, ha, linesOf_none _ s.selId i, linesOf_select]
  | unsel i =>
    obtain ⟨ha, rfl⟩ : s.selActive = true ∧ s.selId = i := by simpa [MicroOp.pre] using hp
    show s.csN.set s.selId.toNat true = linesOf s.params.nCs false s.selId
    rw [hl, ha, linesOf_release]
  | _ => exact hl

/-- The walk lets `SEL` through on a line of the block alone, so `sel_id` stays the id of one (R24). -/
theorem okOp_selId_lt {s : State} {op : MicroOp} {q : Pose} (v : BitVec 32) (h : s.pose.after s.params op = some q)
    (hi : s.selId.toNat < s.params.nCs) : (s.okOp op v).selId.toNat < s.params.nCs := by
  cases op with
  | sel i =>
    simp only [Pose.after, Option.ite_none_right_eq_some, Bool.and_eq_true, decide_eq_true_eq] at h
    exact h.1.2
  | _ => exact hi

/-- The recovery leaves every line high (R236). -/
theorem linesAfterRecovery_linesOf (n : Nat) (a : Bool) (i : LineId) :
    linesAfterRecovery a i (linesOf n a i) = linesOf n false i := by
  cases a with
  | false => rfl
  | true => exact linesOf_release n i

/-- The one line that is low is the selected one (R25). -/
theorem linesOf_getElem?_low {n : Nat} {a : Bool} {i : LineId} {j : Nat} (h : (linesOf n a i)[j]? = some false) :
    a = true ∧ j = i.toNat := by
  cases a with
  | false => simp [linesOf, List.getElem?_replicate] at h
  | true =>
    refine ⟨rfl, ?_⟩
    by_contra hj
    simp [linesOf, List.getElem?_set_ne (Ne.symm hj), List.getElem?_replicate] at h

/-- One line is low while a line of the block is selected, and none while none is (R25, R144). -/
theorem lowLines_linesOf {n : Nat} (a : Bool) {i : LineId} (hi : i.toNat < n) :
    lowLines (linesOf n a i) = if a then 1 else 0 := by
  cases a <;> simp [lowLines, linesOf, List.count_set, hi, List.count_replicate]

/-- Every line is high exactly while none is selected (R25). -/
theorem linesOf_all_high {n : Nat} {a : Bool} {i : LineId} (hi : i.toNat < n) :
    a = false ↔ ∀ b ∈ linesOf n a i, b = true := by
  have hc := lowLines_linesOf a hi
  have hm : (∀ b ∈ linesOf n a i, b = true) ↔ lowLines (linesOf n a i) = 0 := by
    rw [lowLines, List.count_eq_zero]
    exact ⟨fun h hf => Bool.false_ne_true (h _ hf), fun h b hb => by cases b <;> simp_all⟩
  rw [hm, hc]
  cases a <;> simp

/-- The sequencer's step with a due micro-op whose precondition holds runs it (R123). -/
theorem step_dueWith {s : State} {op : MicroOp} {d : Draw} {es : List Event} (h : s.dueWith op d es)
    (hp : op.pre s = true) : step s = .next (runOp op d (s.withInputs es)) := by
  obtain ⟨hb, hd, hi⟩ := h
  have hd' : (s.withInputs es).dueOp = some op := hd
  have hp' : op.pre (s.withInputs es) = true := by cases op <;> exact hp
  simp [step, turn, hi, takeEvent, sequencerTurn, hb, hd', hp']

end Sys2Proof.Machine

/-! SUPPORT. What holds of every accepted command's expansion: from rest it meets every precondition and ends at rest,
it reads the bytes the command reads, and `MODE` stands in it at the end of QEN and QEX alone. -/

namespace Sys2Proof.Machine

theorem Pose.atRest_iff (q : Pose) : q.atRest = true ↔ q.sel = false ∧ q.pin = q.mode ∧ q.clean = true := by
  simp [Pose.atRest, and_assoc]

/-- An expansion that runs out passes its first micro-op and runs out from there. -/
theorem runsOut_cons {p : Params} {q : Pose} {op : MicroOp} {ops : List MicroOp}
    (h : runsOut p q (op :: ops) = true) : ∃ q', q.after p op = some q' ∧ runsOut p q' ops = true := by
  unfold runsOut walk at h
  cases hq : q.after p op with
  | none => simp [hq] at h
  | some q' => exact ⟨q', rfl, by simpa [hq, runsOut] using h⟩

/-- A stretch that goes through leaves the rest to run out. -/
theorem runsOut_append {p : Params} {q q' : Pose} {a : List MicroOp} (b : List MicroOp)
    (h : walk p q a = some q') : runsOut p q (a ++ b) = runsOut p q' b := by
  simp [runsOut, walk_append, h]

section
variable {p : Params} {q : Pose} (hr : q.atRest = true)
include hr

/-- From rest a frame of phases in the present mode goes through (R118). -/
theorem walk_frame_atRest {i : LineId} (hi : i.toNat < p.nCs) {m : WireMode} (hm : m = q.mode) (phases : List Phase) :
    walk p q (frame i (body phases m)) = some { q with id := i } := by
  obtain ⟨hs, hpin, hc⟩ := q.atRest_iff.1 hr
  exact walk_frame p m i _ (body_transfersUnder phases m) q hs (hpin.trans hm.symm) hc hi

/-- From rest a frame of phases in the present mode runs out (R118). -/
theorem runsOut_frame {i : LineId} (hi : i.toNat < p.nCs) {m : WireMode} (hm : m = q.mode) (phases : List Phase) :
    runsOut p q (frame i (body phases m)) = true := by
  rw [← List.append_nil (frame _ _), runsOut_append _ (walk_frame_atRest hr hi hm phases)]
  exact hr

/-- From rest a frame of transfers on every line, then the pins, then the mode, runs out (R202, R205). -/
theorem runsOut_transition (hp : p.wf = true) (m : WireMode) {f : LineId → List MicroOp}
    (hf : ∀ i, ∃ b, f i = frame i b ∧ ∀ o ∈ b, o.transfersUnder q.mode = true) :
    runsOut p q ((allLines p).flatMap f ++ [.pins m, .mode m]) = true := by
  obtain ⟨hs, hm, hc⟩ := q.atRest_iff.1 hr
  obtain ⟨j, hj⟩ := walk_frames p q.mode f hf (allLines p) (fun _ h => mem_allLines hp h) q hs hm hc
  rw [runsOut_append _ hj]
  simp [runsOut, walk, Pose.after, hs, hc, Pose.atRest]

/-- From rest, in the mode a command requires and on a line of the block, its expansion runs out (R101, R111). -/
theorem runsOut_expansionOf (hp : p.wf = true) {i : Instr} (hm : (infoOf i).mode = q.mode)
    (hl : (infoOf i).readsCs = true → i.line.toNat < p.nCs) (wdata : List Byte) :
    runsOut p q (expansionOf i p wdata) = true := by
  cases i with
  | rst cs a l =>
    refine (runsOut_append [.settle] (walk_frame_atRest hr (hl rfl) hm phasesRst)).trans ?_
    have hs := (q.atRest_iff.1 hr).1
    simpa [runsOut, walk, Pose.after, Pose.atRest, hs] using hr
  | qen cs a l =>
    exact runsOut_transition hr hp .qspi fun i => ⟨_, rfl, hm ▸ body_transfersUnder phasesEnableQspi .spi⟩
  | qex cs a l =>
    refine runsOut_transition hr hp .spi fun i => ⟨_, rfl, fun o ho => ?_⟩
    obtain ⟨b, -, rfl⟩ := List.mem_map.1 ho
    rw [← hm]
    rfl
  | _ => exact runsOut_frame hr (hl rfl) hm _

end

/-- Frames that read nothing, on however many lines, read nothing. -/
theorem bytesToRead_flatMap {α : Type} (f : α → List MicroOp) (hf : ∀ a, bytesToRead (f a) = 0) (l : List α) :
    bytesToRead (l.flatMap f) = 0 := by
  induction l with
  | nil => rfl
  | cons a l ih => rw [List.flatMap_cons, bytesToRead_append, hf, ih]

/-- A command's expansion reads the bytes the command reads (R73, R80). -/
theorem bytesToRead_expansionOf (i : Instr) (p : Params) (wdata : List Byte) :
    bytesToRead (expansionOf i p wdata) = bytesWanted i.code i.len := by
  have htx : ∀ l : List Byte, bytesToRead (l.map .tx8) = 0 := bytesToRead_map _ fun _ => rfl
  have hqtx : ∀ l : List Byte, bytesToRead (l.map .qtx) = 0 := bytesToRead_map _ fun _ => rfl
  cases i with
  | rsten cs a l => rfl
  | rst cs a l => rfl
  | rdid cs a l =>
    simp [expansionOf_rdid, bytesToRead_cons, bytesToRead_append, bytesToRead_replicate, MicroOp.bytesRead,
      bytesWanted, Instr.code]
  | tglbl cs a l => rfl
  | frd cs a l =>
    simp [expansionOf_frd, bytesToRead_cons, bytesToRead_append, bytesToRead_replicate, MicroOp.bytesRead,
      bytesWanted, Instr.code, Instr.len]
  | fwr cs a l =>
    simp [expansionOf_fwr, bytesToRead_cons, bytesToRead_append, htx, MicroOp.bytesRead, bytesWanted, Instr.code]
  | qen cs a l =>
    rw [expansionOf_qen, bytesToRead_append, bytesToRead_flatMap _ fun _ => rfl]
    rfl
  | qfrd cs a l =>
    simp [expansionOf_qfrd, bytesToRead_cons, bytesToRead_append, bytesToRead_replicate, MicroOp.bytesRead,
      bytesWanted, Instr.code, Instr.len]
  | qfwr cs a l =>
    simp [expansionOf_qfwr, bytesToRead_cons, bytesToRead_append, hqtx, MicroOp.bytesRead, bytesWanted, Instr.code]
  | qex cs a l =>
    rw [expansionOf_qex, bytesToRead_append, bytesToRead_flatMap]
    · rfl
    · simp [bytesToRead_cons, bytesToRead_append, hqtx, MicroOp.bytesRead]

/-- FWR and QFWR are the writes (R72). -/
theorem infoOf_isWrite (i : Instr) : (infoOf i).isWrite = true ↔ i.code = 0x6 ∨ i.code = 0x9 := by
  cases i <;> simp [infoOf, Instr.code, controlInfo, dataInfo, transitionInfo]

/-- `MODE` stands in the expansions of QEN and QEX alone (R200). -/
theorem code_of_mode_mem {p : Params} {cmd : CmdCode} {cs : LineId} {addr : Addr} {len : Len} {wbuf : List Byte}
    {m : WireMode} (h : .mode m ∈ commandProgram p cmd cs addr len wbuf) : cmd = 0x7 ∨ cmd = 0xA := by
  unfold commandProgram at h
  split at h
  case h_7 hc => exact .inl (BitVec.eq_of_toNat_eq hc)
  case h_10 hc => exact .inr (BitVec.eq_of_toNat_eq hc)
  all_goals simp at h

/-- A `MODE` due in a list that ends with `PINS` and `MODE` and has no other is the last one. -/
theorem mode_due_last {frames : List MicroOp} {m m' : WireMode} {k : Nat} (hf : .mode m ∉ frames)
    (h : (frames ++ [.pins m', .mode m'])[k]? = some (.mode m)) :
    m = m' ∧ k + 1 = (frames ++ [MicroOp.pins m', .mode m']).length := by
  rcases Nat.lt_or_ge k frames.length with hk | hk
  · rw [List.getElem?_append_left hk] at h
    exact absurd (List.mem_of_getElem? h) hf
  · rw [List.getElem?_append_right hk] at h
    match hj : k - frames.length with
    | 0 => simp [hj] at h
    | 1 =>
      have hm : m' = m := by simpa [hj] using h
      exact ⟨hm.symm, by simp; omega⟩
    | j + 2 => simp [hj] at h

/-- Where `MODE` is due in a command's expansion, it is the last micro-op of QEN, to QSPI, or of QEX, to SPI (R200,
R202, R205). -/
theorem commandProgram_mode_due {p : Params} {cmd : CmdCode} {cs : LineId} {addr : Addr} {len : Len}
    {wbuf : List Byte} {m : WireMode} {k : Nat} (h : (commandProgram p cmd cs addr len wbuf)[k]? = some (.mode m)) :
    ((cmd = 0x7 ∧ m = .qspi) ∨ (cmd = 0xA ∧ m = .spi)) ∧
      k + 1 = (commandProgram p cmd cs addr len wbuf).length := by
  rcases code_of_mode_mem (List.mem_of_getElem? h) with rfl | rfl
  · obtain ⟨hm, hk⟩ := mode_due_last (by simp) h
    exact ⟨.inl ⟨rfl, hm⟩, hk⟩
  · obtain ⟨hm, hk⟩ := mode_due_last (by simp) h
    exact ⟨.inr ⟨rfl, hm⟩, hk⟩

end Sys2Proof.Machine

/-! SUPPORT. The invariants of 10_state R35: they hold after reset, and everything the block can do in a step keeps
them. -/

namespace Sys2Proof.Machine

/-- The invariants look at the block alone, not at what only the environment's side of the model uses. -/
theorem Inv.of_sameBlock {s b : State} (h : SameBlock s b) (hs : Inv s) : Inv b := by
  rw [SameBlock] at h
  rw [h]
  exact { hs with }

/-- For an idle block at rest the invariants of a running command say nothing (R35c). -/
theorem Inv.of_idle {s : State} (params : s.params.wf = true) (lines : s.csN = linesOf s.params.nCs false s.selId)
    (selId : s.selId.toNat < s.params.nCs) (sel : s.selActive = false) (busy : s.busy = false)
    (idle : s.pinCfg = s.wireMode ∧ s.prog = [] ∧ s.upc = 0 ∧ s.rbuf = [] ∧ s.wbuf = [] ∧ s.inFlight = [])
    (status : s.lastStatus ≠ .busBusy)
    (noTimeout : s.params.backend = .softwareBitBang → s.lastStatus ≠ .transportTimeout) : Inv s := by
  have ⟨_, hprog, hupc, _, _, hq⟩ := idle
  have notBusy : s.busy ≠ true := by simp [busy]
  exact
    { params, selId, status, noTimeout
      lines := sel ▸ lines
      selBusy := fun h => absurd h (by simp [sel])
      idle := fun _ => idle
      upc := by simp [hprog, hupc]
      queue := fun _ => hq
      program := fun h => absurd h notBusy
      runs := fun h => absurd h notBusy
      host := fun h => absurd h notBusy
      reads := fun h => absurd h notBusy
      writes := fun h => absurd h notBusy }

/-- The block right after reset has the invariants (R20, R260). -/
theorem Inv.reset {p : Params} (hp : p.wf = true) : Inv (State.resetWith p) :=
  .of_idle hp rfl ((Params.wf_iff p).1 hp).1.1 rfl rfl ⟨rfl, rfl, rfl, rfl, rfl, rfl⟩ (by simp [State.resetWith])
    fun _ => by simp [State.resetWith]

/-- An idle block is at rest, with no selection held (R35c, R35d). -/
theorem Inv.pose_atRest {s : State} (hs : Inv s) (hb : s.busy = false) : s.pose.atRest = true := by
  obtain ⟨hpin, -, -, -, -, hq⟩ := hs.idle hb
  have ha : s.selActive = false := by
    by_contra h
    simp [hs.selBusy (by simpa using h)] at hb
  simp [Pose.atRest_iff, State.pose, ha, hpin, hq]

theorem Inv.rejectBusy {s : State} (hs : Inv s) (st : Status) : Inv (s.rejectBusy st) := { hs with }

/-- No check of an idle block answers `BusBusy` or `TransportTimeout` (R30, R122). -/
theorem Inv.rejectIdle {s : State} (hs : Inv s) {st : Status} (hst : st = .badArgument ∨ st = .invalidModeTransition) :
    Inv (s.rejectIdle st) :=
  { hs with
    status := show st ≠ .busBusy by rcases hst with rfl | rfl <;> decide
    noTimeout := fun _ => show st ≠ .transportTimeout by rcases hst with rfl | rfl <;> decide }

/-- Acceptance begins an expansion that runs out (R120). -/
theorem Inv.accept {s : State} (hs : Inv s) {i : Instr} (hb : s.busy = false) (hh : s.port.host < s.params.nHost)
    (hc : idleCheck (infoOf i) i.line i.len s = none) :
    Inv (s.accept (infoOf i) i.line i.addr i.len (expansionOf i s.params s.port.wdata)) := by
  obtain ⟨hline, -, hdata, hmode⟩ := (idleCheck_eq_none ..).1 hc
  rw [badLine_eq_false] at hline
  rw [badData_eq_false] at hdata
  exact
    { hs with
      selBusy := fun _ => rfl
      idle := fun h => absurd h (by simp)
      upc := Nat.zero_le _
      program := fun _ => by simp [expansionOf_eq_commandProgram, infoOf_code]
      runs := fun _ => runsOut_expansionOf (hs.pose_atRest hb) hs.params hmode hline _
      host := fun _ => hh
      reads := fun _ => by simp [bytesToRead_expansionOf, infoOf_code]
      writes := fun _ => by
        simp only [State.accept_wbuf, State.accept_curCmd, State.accept_curLen, infoOf_code, ← infoOf_isWrite]
        split
        · exact hdata ‹_›
        · rfl }

/-- What is left of the expansion after the due micro-op, which the walk lets through (R101, R111). -/
theorem Inv.runs_due {s : State} (hs : Inv s) (hb : s.busy = true) {op : MicroOp} (hd : s.dueOp = some op) :
    ∃ q, s.pose.after s.params op = some q ∧ runsOut s.params q (s.prog.drop (s.upc + 1)) = true :=
  runsOut_cons (drop_of_dueOp hd ▸ hs.runs hb)

/-- The due micro-op, returning `Ok`, goes one place further along the expansion (R101, R124). -/
theorem Inv.okOp {s : State} (hs : Inv s) (hb : s.busy = true) {op : MicroOp} (hd : s.dueOp = some op)
    (v : BitVec 32) : Inv (s.okOp op v) := by
  obtain ⟨q, hq, hruns⟩ := hs.runs_due hb hd
  obtain ⟨hparams, hbusy, hprog, hupc, hhost, hcmd, hcs, haddr, hlen, hwbuf, hstatus, -, hrbuf⟩ := okOp_same s op v
  have hreads := hs.reads hb
  rw [drop_of_dueOp hd, bytesToRead_cons] at hreads
  have hlt : s.upc < s.prog.length := (List.getElem?_eq_some_iff.1 hd).1
  exact
    { params := by rw [hparams]; exact hs.params
      lines := by rw [hparams]; exact okOp_lines v hq hs.lines
      selId := by rw [hparams]; exact okOp_selId_lt v hq hs.selId
      selBusy := fun _ => by rw [hbusy, hb]
      idle := fun h => by simp [hbusy, hb] at h
      upc := by rw [hprog, hupc]; exact hlt
      program := fun _ => by rw [hparams, hprog, hcmd, hcs, haddr, hlen, hwbuf]; exact hs.program hb
      runs := fun _ => by rw [hparams, hprog, hupc, okOp_pose hq]; exact hruns
      queue := fun h => by
        rw [hparams] at h
        exact okOp_inFlight s op v h (hs.queue h)
      host := fun _ => by rw [hparams, hhost]; exact hs.host hb
      reads := fun _ => by rw [hrbuf, hprog, hupc, hcmd, hlen, ← hreads, Nat.add_assoc]
      writes := fun _ => by rw [hwbuf, hcmd, hlen]; exact hs.writes hb
      status := by rw [hstatus]; exact hs.status
      noTimeout := fun h => by
        rw [hparams] at h
        rw [hstatus]
        exact hs.noTimeout h }

/-- The recovery leaves the block idle and at rest (R236). -/
theorem Inv.recover {s : State} (hs : Inv s) {e : Status}
    (he : (e = .transportTimeout ∧ s.params.backend ≠ .softwareBitBang) ∨ e = .shortTransfer) :
    Inv (s.recover e) := by
  refine .of_idle hs.params ?_ hs.selId rfl rfl ⟨rfl, rfl, rfl, rfl, rfl, rfl⟩ ?_ ?_
  · rw [State.recover_csN, hs.lines, linesAfterRecovery_linesOf]
    rfl
  · rcases he with ⟨rfl, -⟩ | rfl <;> simp
  · rcases he with ⟨rfl, hne⟩ | rfl
    · exact fun h => absurd h hne
    · simp

theorem Inv.failedOp {s : State} (hs : Inv s) (op : MicroOp) : Inv (s.failedOp op) := by
  obtain ⟨w, hw⟩ := failedOp_eq s op
  rw [hw]
  exact { hs with }

/-- Completion at the end of the expansion finds the block at rest (R35c, R125). -/
theorem Inv.complete {s : State} (hs : Inv s) (hb : s.busy = true) (hl : s.upc = s.prog.length) :
    Inv s.complete := by
  have hrest : s.pose.atRest = true := by
    have h := hs.runs hb
    rwa [hl, List.drop_length] at h
  obtain ⟨ha, hpin, hq⟩ := (Pose.atRest_iff _).1 hrest
  change s.selActive = false at ha
  have hlines := hs.lines
  rw [ha] at hlines
  exact .of_idle hs.params hlines hs.selId ha rfl ⟨hpin, rfl, rfl, rfl, rfl, List.isEmpty_iff.1 hq⟩ (by simp)
    fun _ => by simp

/-- Everything the block can do in a step keeps the invariants. -/
theorem Inv.did {b t : State} (hb : Inv b) (h : Did b t) : Inv t := by
  cases h with
  | nothing => exact hb
  | rejectedBusy st _ _ => exact hb.rejectBusy st
  | rejectedIdle st _ answer => exact hb.rejectIdle answer
  | accepted i idle host checks => exact hb.accept idle host checks
  | okOp op v busy due _ => exact hb.okOp busy due v
  | failed op e _ _ _ cause =>
    refine (hb.failedOp op).recover ?_
    obtain ⟨w, hw⟩ := failedOp_eq b op
    rwa [hw]
  | completed busy last => exact hb.complete busy last

/-- Settles O8: a step leaves the block as it was but for the environment's fields, or does one of the things of `Did`,
and each keeps the invariants. -/
theorem stepKeepsTheInvariant : Obligations.StepKeepsTheInvariant := by
  intro s t hs h
  obtain ⟨b, hb, hd⟩ := step_did h
  exact (hs.of_sameBlock hb).did hd

/-- Settles O7: the events to come are no part of the invariants. -/
theorem invariantHoldsAtReset : Obligations.InvariantHoldsAtReset :=
  fun _ _ hp => (Inv.reset hp).of_sameBlock rfl

/-- Every reachable state has the invariants. -/
theorem Reachable.inv {s : State} (h : Reachable s) : Inv s := by
  obtain ⟨p, es, n, wf, run⟩ := h
  exact runSteps_keeps stepKeepsTheInvariant (invariantHoldsAtReset p es wf) run

end Sys2Proof.Machine

/-! SUPPORT. What a step must be doing where it changes a field of the block (10_state R21, R36), and the STATUS view
(R31). -/

namespace Sys2Proof.Machine

/-- Settles O10: the lines of a reachable state are those of its selection. -/
theorem reachableSelectionIsExclusive : Obligations.ReachableSelectionIsExclusive := by
  intro s h
  have hs := h.inv
  have hlow : ∀ j : Nat, s.csN[j]? = some false → s.selActive = true ∧ j = s.selId.toNat := fun j hj =>
    linesOf_getElem?_low (hs.lines ▸ hj)
  refine ⟨?_, fun _ j hj => (hlow j hj).2, ?_, fun hb => ?_, hs.selBusy, fun i j hi hj => ?_⟩
  · rw [hs.lines, lowLines_linesOf _ hs.selId]
    cases s.selActive <;> simp
  · rw [hs.lines]
    exact linesOf_all_high hs.selId
  · obtain ⟨hpin, hprog, hupc, -⟩ := hs.idle hb
    exact ⟨((Pose.atRest_iff _).1 (hs.pose_atRest hb)).1, hpin, hprog, hupc⟩
  · rw [(hlow i hi).2, (hlow j hj).2]

/-- The step ended the running command in the error recovery (R236). -/
def Recovered (s t : State) : Prop :=
  (s.busy = true ∧ t.busy = false) ∧ (t.lastStatus = .transportTimeout ∨ t.lastStatus = .shortTransfer)

/-- What a step from `s` to `t` was doing where it changed a field of the block, the clauses of R36 by their fields. -/
structure WritesOnlyListed (s t : State) : Prop where
  params : t.params = s.params
  wireMode : t.wireMode ≠ s.wireMode → (∃ m, s.busy = true ∧ s.dueOp = some (.mode m)) ∨ Recovered s t
  pinCfg : t.pinCfg ≠ s.pinCfg → (∃ m, s.busy = true ∧ s.dueOp = some (.pins m)) ∨ Recovered s t
  selection : t.selActive ≠ s.selActive ∨ t.csN ≠ s.csN →
    (∃ i, (s.busy = true ∧ s.dueOp = some (.sel i)) ∨ (s.busy = true ∧ s.dueOp = some (.unsel i))) ∨ Recovered s t
  selId : t.selId ≠ s.selId → ∃ i, s.busy = true ∧ s.dueOp = some (.sel i)
  program : t.busy ≠ s.busy ∨ t.prog ≠ s.prog ∨ t.wbuf ≠ s.wbuf →
    (s.busy = false ∧ t.busy = true) ∨ (s.busy = true ∧ t.busy = false)
  upc : t.upc ≠ s.upc →
    (s.busy = false ∧ t.busy = true) ∨ (s.busy = true ∧ t.busy = false) ∨
      (s.busy = true ∧ t.busy = true ∧ t.upc = s.upc + 1)
  latches : t.curHost ≠ s.curHost ∨ t.curCmd ≠ s.curCmd ∨ t.curCs ≠ s.curCs ∨ t.curAddr ≠ s.curAddr ∨
    t.curLen ≠ s.curLen → s.busy = false ∧ t.busy = true
  rbuf : t.rbuf ≠ s.rbuf →
    (s.busy = false ∧ t.busy = true) ∨ (s.busy = true ∧ t.busy = false) ∨ (s.busy = true ∧ s.dueOp = some .rx8) ∨
      (s.busy = true ∧ s.dueOp = some .rx32) ∨ (s.busy = true ∧ s.dueOp = some .qrx)
  lastStatus : t.lastStatus ≠ s.lastStatus → (s.busy = false ∧ t.busy = false) ∨ (s.busy = true ∧ t.busy = false)

/-- A due micro-op that returns `Ok` writes what R36 lists for it. -/
theorem WritesOnlyListed.okOp {b : State} {op : MicroOp} (v : BitVec 32) (busy : b.busy = true)
    (due : b.dueOp = some op) : WritesOnlyListed b (b.okOp op v) := by
  obtain ⟨hparams, hbusy, hprog, hupc, hhost, hcmd, hcs, haddr, hlen, hwbuf, hstatus, -⟩ := okOp_same b op v
  exact
    { params := hparams
      wireMode := fun h => .inl ⟨_, busy, due.trans (congrArg some ((okOp_wireMode b op v).resolve_left h))⟩
      pinCfg := fun h => .inl ⟨_, busy, due.trans (congrArg some ((okOp_pinCfg b op v).resolve_left h))⟩
      selection := fun h => by
        rcases okOp_selection b op v with ⟨i, rfl⟩ | ⟨-, ⟨i, rfl⟩ | ⟨ha, hl⟩⟩
        · exact .inl ⟨i, .inl ⟨busy, due⟩⟩
        · exact .inl ⟨i, .inr ⟨busy, due⟩⟩
        · simp [ha, hl] at h
      selId := fun h => by
        rcases okOp_selection b op v with ⟨i, rfl⟩ | ⟨hi, -⟩
        · exact ⟨i, busy, due⟩
        · exact absurd hi h
      program := by simp [hbusy, hprog, hwbuf]
      upc := fun _ => .inr (.inr ⟨busy, hbusy.trans busy, hupc⟩)
      latches := by simp [hhost, hcmd, hcs, haddr, hlen]
      rbuf := fun h => by
        rcases (okOp_rbuf b op v).resolve_left h with rfl | rfl | rfl <;> simp [busy, due]
      lastStatus := by simp [hstatus] }

/-- Everything the block can do in a step writes what R36 lists for it. -/
theorem Did.writesOnlyListed {b t : State} (h : Did b t) : WritesOnlyListed b t := by
  cases h with
  | nothing => constructor <;> simp
  | rejectedBusy st busy _ => constructor <;> simp
  | rejectedIdle st idle _ => constructor <;> simp [idle]
  | accepted i idle _ _ => constructor <;> simp [idle]
  | okOp op v busy due _ => exact .okOp v busy due
  | failed op e busy _ _ cause =>
    have he : e = .transportTimeout ∨ e = .shortTransfer := cause.imp_left And.left
    obtain ⟨w, hw⟩ := failedOp_eq b op
    rw [hw]
    constructor <;> simp [Recovered, busy, he]
  | completed busy _ => constructor <;> simp [busy]

/-- A step writes what R36 lists, whatever it does to the environment's fields. -/
theorem step_writesOnlyListed {s t : State} (h : step s = .next t) : WritesOnlyListed s t := by
  obtain ⟨b, hb, hd⟩ := step_did h
  have hw := hd.writesOnlyListed
  rw [SameBlock] at hb
  rw [hb] at hw
  exact { hw with }

/-- Settles O12: the clauses of `WritesOnlyListed`. -/
theorem stepWritesOnlyWhatR36Lists : Obligations.StepWritesOnlyWhatR36Lists := by
  intro s t h
  have w := step_writesOnlyListed h
  exact ⟨w.params, w.wireMode, w.pinCfg, w.selection, w.selId, w.program, w.upc, w.latches, w.rbuf, w.lastStatus⟩

/-- Everything the block can do that changes the wire mode is `MODE` with another mode, or the recovery (R21). -/
theorem Did.wireMode_changed {b t : State} (h : Did b t) (hm : t.wireMode ≠ b.wireMode) :
    (b.busy = true ∧ b.dueOp = some (.mode t.wireMode)) ∨ (Recovered b t ∧ t.wireMode = .spi) := by
  cases h with
  | okOp op v busy due _ =>
    exact .inl ⟨busy, due.trans (congrArg some ((okOp_wireMode b op v).resolve_left hm))⟩
  | failed op e busy _ _ cause => exact .inr ⟨⟨⟨busy, rfl⟩, cause.imp_left And.left⟩, rfl⟩
  | _ => exact absurd rfl hm

/-- There are two wire modes. -/
theorem WireMode.ne_cases {m m' : WireMode} (h : m ≠ m') : (m = .spi ∧ m' = .qspi) ∨ (m = .qspi ∧ m' = .spi) := by
  cases m <;> cases m' <;> simp_all

/-- Settles O11: `MODE` is due only at the end of the expansions of QEN and QEX, and a change by it leaves the other
mode. -/
theorem onlyTransitionsAndRecoveryChangeTheMode : Obligations.OnlyTransitionsAndRecoveryChangeTheMode := by
  intro s t hs h hm
  obtain ⟨b, hb, hd⟩ := step_did h
  rw [SameBlock] at hb
  rw [hb] at hd
  rcases hd.wireMode_changed hm with ⟨busy, due⟩ | ⟨⟨⟨busy, ended⟩, status⟩, spi⟩
  · change s.busy = true at busy
    change s.prog[s.upc]? = some (.mode t.wireMode) at due
    have hprog := hs.program busy
    rw [hprog] at due
    obtain ⟨hcmd, hlast⟩ := commandProgram_mode_due due
    rw [← hprog] at hlast
    have hother := WireMode.ne_cases hm
    rcases hcmd with ⟨hc, ht⟩ | ⟨hc, ht⟩
    · exact .inl ⟨busy, hc, hlast, by simpa [ht] using hother, ht⟩
    · exact .inr (.inl ⟨busy, hc, hlast, by simpa [ht] using hother, ht⟩)
  · exact .inr (.inr ⟨busy, ended, spi, status⟩)

/-- The STATUS view as a number, each field at its place (R31). -/
theorem statusView_toNat (s : State) :
    s.statusView.toNat =
      (if s.wireMode = .qspi then 1 else 0) + (if s.pinCfg = .qspi then 2 else 0) + (if s.selActive then 4 else 0) +
        (if s.busy then 8 else 0) + 16 * s.selId.toNat + 256 * s.lastStatus.code.toNat := by
  have hbit : ∀ m : WireMode, (BitVec.ofBool m.bit).toNat = if m = .qspi then 1 else 0 := fun m => by
    cases m <;> rfl
  have hflag : ∀ f : Bool, (BitVec.ofBool f).toNat = if f then 1 else 0 := by decide
  simp only [State.statusView, toNat_append_eq, hbit, hflag]
  have h0 : (0 : BitVec 5).toNat = 0 := rfl
  rw [h0]
  split_ifs <;> omega

/-- The STATUS view reads 0x0000 after reset (R260). -/
theorem statusView_resetWith (p : Params) : (State.resetWith p).statusView = 0x0000 :=
  BitVec.eq_of_toNat_eq (by rw [statusView_toNat]; rfl)

/-- Settles O6: the values of the record that reset writes. -/
theorem resetLeavesTheStatedValues : Obligations.ResetLeavesTheStatedValues := by
  intro p
  have hhigh : ∀ b ∈ List.replicate p.nCs true, b = true := fun _ => List.eq_of_mem_replicate
  exact ⟨rfl, rfl, rfl, rfl, List.length_replicate, hhigh, rfl, rfl, rfl, rfl, rfl, rfl,
    statusView_resetWith p, rfl⟩

/-- Settles O39: the view by its number, which leaves nothing for bits 15:11; a read adds to the STATUS reads alone. -/
theorem statusViewPacksAndReadsFreely : Obligations.StatusViewPacksAndReadsFreely := by
  refine ⟨fun s => ⟨statusView_toNat s, BitVec.eq_of_toNat_eq ?_⟩, statusView_resetWith, fun s h es hh hi => ?_⟩
  · have hsel := s.selId.isLt
    have hcode : s.lastStatus.code.toNat ≤ 5 := by cases s.lastStatus <;> decide
    have hlt : s.statusView.toNat < 2 ^ 11 := by
      rw [statusView_toNat]
      split_ifs <;> omega
    rw [BitVec.extractLsb'_toNat, Nat.shiftRight_eq_div_pow, Nat.div_eq_of_lt hlt]
    rfl
  · have hread : (s.withInputs es).readStatus h =
        { s with inputs := es, statusReads := s.statusReads ++ [{ host := h, value := s.statusView }] } := if_pos hh
    simp only [step, turn, hi, takeEvent, hread]

/-- Settles O29: a due `SEL` or `UNSEL` whose precondition holds runs the framer's own operation, and the framer selects
nothing while a line is held. -/
theorem selectAndReleaseMoveOneLine : Obligations.SelectAndReleaseMoveOneLine := by
  refine ⟨fun s i d es hd ha => ?_, fun s i ha => ?_, fun s i d es hd ha hi => ?_⟩
  · have hsel : runSel i (s.withInputs es) = ((s.withInputs es).select i).advance := runSel_free ha
    exact (step_dueWith hd (by simp [MicroOp.pre, ha])).trans (congrArg _ hsel)
  · have hnone : framerSel i s = none := if_pos ha
    exact ⟨hnone, by rw [runSel, hnone]⟩
  · exact step_dueWith hd (by simp [MicroOp.pre, ha, hi])

end Sys2Proof.Machine

/-! SUPPORT. What the invariants say when a micro-op is due: its precondition, and, at `UNSEL` and `PINS`, an empty queue
(40_transport_and_phases R101, R118). -/
namespace Sys2Proof.Machine

/-- With the invariants, no line is low while none is held (R25). -/
theorem Inv.all_high {s : State} (hs : Inv s) (ha : s.selActive = false) : ∀ b ∈ s.csN, b = true :=
  hs.lines ▸ (linesOf_all_high hs.selId).1 ha

/-- With the invariants, the due micro-op meets its precondition (R101, R111). -/
theorem Inv.pre_due {s : State} (hs : Inv s) (hb : s.busy = true) {op : MicroOp} (hd : s.dueOp = some op) :
    op.pre s = true := by
  obtain ⟨q, hq, -⟩ := hs.runs_due hb hd
  exact pre_of_after hq

/-- With the invariants, `UNSEL` and `PINS` are due with nothing in flight alone (R64, R269). -/
theorem Inv.drained_due {s : State} (hs : Inv s) (hb : s.busy = true) {op : MicroOp} (hd : s.dueOp = some op)
    (ho : (∃ i, op = .unsel i) ∨ ∃ m, op = .pins m) : s.inFlight = [] := by
  obtain ⟨q, hq, -⟩ := hs.runs_due hb hd
  rcases ho with ⟨i, rfl⟩ | ⟨m, rfl⟩
  · obtain ⟨⟨-, hclean⟩, -⟩ := by simpa [Pose.after, State.pose] using hq
    exact hclean
  · obtain ⟨⟨-, hclean⟩, -⟩ := by simpa [Pose.after, State.pose] using hq
    exact hclean

/-- Settles O48: the due micro-op meets its precondition, which for `PINS`, `MODE` and `SETTLE` says that no line is
held, and the walk passes `UNSEL` and `PINS` with nothing in flight alone. -/
theorem unselAndPinsAreDueOnlyAfterTheDrain : Obligations.UnselAndPinsAreDueOnlyAfterTheDrain := by
  intro s hs hb
  refine ⟨fun i hd => hs.drained_due hb hd (.inl ⟨i, rfl⟩), fun m hd => ?_, fun m hd => ?_, fun hd => ?_⟩
  · have hfree : s.selActive = false := by simpa [MicroOp.pre] using hs.pre_due hb hd
    exact ⟨hs.drained_due hb hd (.inr ⟨m, rfl⟩), hs.all_high hfree⟩
  · obtain ⟨hfree, hpin⟩ : s.selActive = false ∧ s.pinCfg = m := by simpa [MicroOp.pre] using hs.pre_due hb hd
    exact ⟨hpin, hs.all_high hfree⟩
  · exact hs.all_high (by simpa [MicroOp.pre] using hs.pre_due hb hd)

end Sys2Proof.Machine

/-! SUPPORT. The steps of a command that goes well, said once: a submission accepted (R120), a micro-op answered `Ok`
(R123), and completion (R125). -/

namespace Sys2Proof.Machine

/-- The decoder reads a command's word back as that command (R78, R86). -/
theorem decode_encode (i : Instr) : decode (encode i) = .cmd i := by
  cases i <;> simp [decode, encode, Instr.code, Instr.line, Instr.addr, Instr.len]

/-- An idle block that is given the word of a command whose checks all pass accepts it (R120, R122). -/
theorem step_submit_accepted {s : State} {h : Nat} {i : Instr} {wd : List Byte} {es : List Event}
    (hin : s.inputs = .submit h (encode i) wd :: es) (hb : s.busy = false) (hh : h < s.params.nHost)
    (hc : idleCheck (infoOf i) i.line i.len ((s.withInputs es).present h wd) = none) :
    step s = .next (((s.withInputs es).present h wd).accept (infoOf i) i.line i.addr i.len
      (expansionOf i s.params wd)) := by
  have hmay : (s.withInputs es).maySubmit h = true := by simp [State.maySubmit, State.waiting, hb, hh]
  simp only [step, turn, hin, takeEvent, hmay, if_true, submitWord, decode_encode, exec_eq_submit]
  exact submit_accepted hb hc

/-- The checks pass for a data command in its mode, on a line of the block, with a length the block allows and, where it
writes, that many bytes (R122). -/
theorem idleCheck_data_eq_none {code : CmdCode} {isWrite : Bool} {m : WireMode} {cs : LineId} {l : Len} {s : State}
    (hm : s.wireMode = m) (hl : cs.toNat < s.params.nCs) (hn : l.toNat ≤ s.params.maxLen.toNat)
    (hd : isWrite = true → s.port.wdata.length = l.toNat) : idleCheck (dataInfo code isWrite m) cs l s = none := by
  rw [idleCheck_eq_none, badLine_eq_false, badLength_eq_false, badData_eq_false]
  exact ⟨fun _ => hl, fun _ => hn, hd, hm.symm⟩

/-- Past the last micro-op the sequencer's step completes the command (R125). -/
theorem step_complete {s : State} {d : Draw} {es : List Event} (hb : s.busy = true) (hl : s.upc = s.prog.length)
    (hin : s.inputs = .transport d :: es) : step s = .next (s.withInputs es).complete := by
  have hdue : (s.withInputs es).dueOp = none := by simp [State.dueOp, hl]
  simp [step, turn, hin, takeEvent, sequencerTurn, hb, hdue, hl]

/-- The events to come are no part of a micro-op's precondition (R101). -/
theorem pre_withInputs (op : MicroOp) (s : State) (es : List Event) : op.pre (s.withInputs es) = op.pre s := by
  cases op <;> rfl

/-- The sequencer's step with a due micro-op, its precondition holding, that the transport answers `Ok` (R101, R123). -/
theorem step_okEvent {s : State} {op : MicroOp} (hb : s.busy = true) (hd : s.dueOp = some op) (hp : op.pre s = true)
    (hs : op ≠ .settle) (v : BitVec 32) :
    step (s.withInputs [okEvent v]) = .next ((s.withInputs []).okOp op v) := by
  have hdue : (s.withInputs [okEvent v]).dueWith op ⟨.ok, v⟩ [] := ⟨hb, hd, rfl⟩
  have hpre : ∀ es, op.pre (s.withInputs es) = true := fun es => (pre_withInputs op s es).trans hp
  exact (step_dueWith hdue (hpre _)).trans (congrArg _ (runOp_ok (hpre []) rfl hs))

/-- What a micro-op that returns `Ok` appends to `rbuf` (R29, R101). -/
theorem okOp_rbuf_eq (s : State) (op : MicroOp) (v : BitVec 32) : (s.okOp op v).rbuf = s.rbuf ++ op.readBytes v := by
  cases op <;> simp [State.okOp, MicroOp.readBytes, wordBytes]

end Sys2Proof.Machine

/-! SUPPORT. A command under way on the bench of the ideal-device fixture, every answer `Ok`: one turn for each micro-op
of a frame, and what a turn leaves alone. -/

namespace Sys2Proof.Machine

theorem Bench.run_succ {n : Nat} {b b' : Bench} (h : b.turn = .next b') : Bench.run (n + 1) b = Bench.run n b' := by
  rw [Bench.run, h]

/-- Two runs of the bench put together. -/
theorem Bench.run_add {m n : Nat} {b b' : Bench} (h : Bench.run m b = .next b') :
    Bench.run (m + n) b = Bench.run n b' := by
  induction m generalizing b with
  | zero => cases h; rw [Nat.zero_add]
  | succ m ih =>
    rw [Bench.run] at h
    split at h
    next b₁ hb => rw [Nat.add_right_comm, Bench.run_succ hb, ih h]
    all_goals cases h

/-- What the running of a frame leaves alone, besides the block's invariants: the parameters, the pins, the latches a
response is made of, the responses and the host program. -/
structure Bench.Context where
  params : Params
  pins : WireMode
  host : Nat
  cmd : CmdCode
  responses : List Delivery
  script : List Event

def Bench.context (b : Bench) : Bench.Context where
  params := b.blk.params
  pins := b.blk.pinCfg
  host := b.blk.curHost
  cmd := b.blk.curCmd
  responses := b.blk.responses
  script := b.script

/-- A command is running, `ops` of its expansion are left, and every answer to come is `Ok`. -/
structure Bench.Running (b : Bench) (c : Bench.Context) (ops : List MicroOp) : Prop where
  inv : Inv b.blk
  busy : b.blk.busy = true
  left : b.blk.prog.drop b.blk.upc = ops
  inject : b.inject = none
  context : b.context = c

/-- A micro-op of a frame (R118): all but those of the mode controller and the settle wait. -/
def MicroOp.ofFrame (op : MicroOp) : Bool :=
  match op with
  | .pins _ => false
  | .mode _ => false
  | .settle => false
  | _ => true

/-- The block as the fixture's answer finds it. -/
abbrev Bench.asked (b : Bench) : State := b.blk.countDraw.withInputs []

theorem Bench.inv_asked {b : Bench} (h : Inv b.blk) : Inv b.asked := Inv.of_sameBlock (s := b.blk) rfl h

/-- The bench after the due micro-op `op` has returned `Ok` with the value the fixture gives. -/
def Bench.okTurn (b : Bench) (op : MicroOp) : Bench := b.after (some op) (b.asked.okOp op (b.value (some op)))

/-- A turn of the bench with a due micro-op and nothing to inject (R123). -/
theorem Bench.turn_eq_okTurn {b : Bench} {op : MicroOp} (hi : Inv b.blk) (hb : b.blk.busy = true)
    (hd : b.blk.dueOp = some op) (hj : b.inject = none) (hs : op ≠ .settle) : b.turn = .next (b.okTurn op) := by
  have hanswer : b.answer = .ok := by simp [Bench.answer, hj]
  have hevent : b.event = okEvent (b.value (some op)) := by
    unfold Bench.event
    rw [hd, hanswer]
    split
    next h => exact absurd (Option.some.inj h) hs
    next => rfl
  have hpre : op.pre b.blk.countDraw = true := by cases op <;> exact hi.pre_due hb hd
  have hstep := step_okEvent (s := b.blk.countDraw) hb hd hpre hs (b.value (some op))
  rw [← hevent] at hstep
  simp only [Bench.turn, hb, if_true, hstep, hd, Bench.okTurn]

/-- A turn that leaves the block busy changes neither the host program nor the empty injection. -/
theorem Bench.after_busy {b : Bench} {t : State} (op : Option MicroOp) (ht : t.busy = true) (hj : b.inject = none) :
    (b.after op t).blk = t ∧ (b.after op t).inject = none ∧ (b.after op t).script = b.script := by
  have hleft : b.injectLeft = none := by simp [Bench.injectLeft, hj]
  unfold Bench.after
  split <;> simp [ht, Bench.moved, Bench.sent, hleft]

/-- A turn with a micro-op of a frame due runs it, and the command goes on with the rest (R123, R124). -/
theorem Bench.Running.turn {b : Bench} {c : Bench.Context} {op : MicroOp} {ops : List MicroOp}
    (h : b.Running c (op :: ops)) (ho : op.ofFrame = true) :
    b.turn = .next (b.okTurn op) ∧ (b.okTurn op).Running c ops := by
  obtain ⟨inv, busy, left, inject, rfl⟩ := h
  have hdue : b.blk.dueOp = some op := by
    rw [State.dueOp, ← List.head?_drop, left]
    rfl
  obtain ⟨hparams, hbusy, hprog, hupc, hhost, hcmd, -, -, -, -, -, hresponses, -⟩ :=
    okOp_same b.asked op (b.value (some op))
  have hpins := (okOp_pinCfg b.asked op (b.value (some op))).resolve_right fun he => by
    rw [he] at ho
    cases ho
  obtain ⟨hblk, hinject, hscript⟩ := Bench.after_busy (some op) (hbusy.trans busy) inject
  refine ⟨Bench.turn_eq_okTurn inv busy hdue inject (by rintro rfl; cases ho), ?_⟩
  unfold Bench.okTurn
  exact
    { inv := by rw [hblk]; exact (Bench.inv_asked inv).okOp busy hdue _
      busy := by rw [hblk]; exact hbusy.trans busy
      left := by
        rw [hblk, hprog, hupc]
        exact (List.cons.inj ((drop_of_dueOp hdue).symm.trans left)).2
      inject := hinject
      context := by simp [Bench.context, hblk, hscript, hparams, hpins, hhost, hcmd, hresponses] }

end Sys2Proof.Machine

/-! SUPPORT. A frame as the fixture sees it: the device on the selected line, what has been sent to it and what has been
read. `FrameView.after` says what a micro-op does to a frame, `Bench.InFrame.okTurn` that the bench does just that. -/

namespace Sys2Proof.Machine

/-- A frame under way: the device it addresses, the bytes sent, the nibble-pair reads made and the bytes received. -/
structure FrameView where
  dev : Device
  outs : List Byte
  reads : Nat
  rbuf : List Byte

/-- The bench has the frame `f` under way on `line`. -/
structure Bench.InFrame (b : Bench) (line : LineId) (f : FrameView) : Prop where
  selId : b.blk.selId = line
  device : b.devs[line.toNat]? = some f.dev
  outs : b.outs = f.outs
  reads : b.reads = f.reads
  rbuf : b.blk.rbuf = f.rbuf

/-- The frame after the byte `v` has been sent in mode `m`: a device that follows may store it. -/
def FrameView.sent (p : Params) (m : WireMode) (f : FrameView) (v : Byte) : FrameView :=
  { f with
    outs := f.outs ++ [v]
    dev := if f.dev.follows m then storeByte (writeOpcode p m) f.dev (f.outs ++ [v]) v else f.dev }

/-- The device's answer to a read in mode `m`, where it follows and the fixture fixes one. -/
def FrameView.answer (p : Params) (m : WireMode) (f : FrameView) : Option Byte :=
  if f.dev.follows m then
    match m with
    | .spi => spiAnswer p.readIdPadBytes f.dev (f.outs ++ [Config.filler])
    | .qspi => qspiAnswer f.dev f.outs f.reads
  else none

/-- The frame after a micro-op that has returned `Ok`; `none` where the fixture does not fix what is read, and for a
micro-op that does not stand between the selection and the release. -/
def FrameView.after (p : Params) (f : FrameView) (op : MicroOp) : Option FrameView :=
  match op with
  | .tx8 v => some (f.sent p .spi v)
  | .qtx v => some (f.sent p .qspi v)
  | .rx8 => (f.answer p .spi).map fun x => { f with outs := f.outs ++ [Config.filler], rbuf := f.rbuf ++ [x] }
  | .qrx => (f.answer p .qspi).map fun x => { f with reads := f.reads + 1, rbuf := f.rbuf ++ [x] }
  | .qskip => some { f with reads := f.reads + 1 }
  | .drain => some f
  | _ => none

theorem FrameView.ofFrame_of_after {p : Params} {f f' : FrameView} {op : MicroOp} (h : f.after p op = some f') :
    op.ofFrame = true := by
  cases op with
  | pins | mode | settle => cases h
  | _ => rfl

section
variable {b : Bench} {line : LineId} {f : FrameView}

theorem Bench.InFrame.selected (h : b.InFrame line f) (m : WireMode) :
    b.selected m = if f.dev.follows m then some f.dev else none := by
  simp [Bench.selected, h.selId, h.device]

theorem Bench.InFrame.spiByte (h : b.InFrame line f) {x : Byte} (hx : f.answer b.blk.params .spi = some x)
    (free : Byte) : b.spiByte (b.outs ++ [Config.filler]) free = x := by
  simp only [FrameView.answer, Option.ite_none_right_eq_some] at hx
  simp [Bench.spiByte, h.selected, h.outs, hx]

theorem Bench.InFrame.qspiByte (h : b.InFrame line f) {x : Byte} (hx : f.answer b.blk.params .qspi = some x) :
    b.qspiByte = x := by
  simp only [FrameView.answer, Option.ite_none_right_eq_some] at hx
  simp [Bench.qspiByte, h.selected, h.outs, h.reads, hx]

/-- A byte sent goes to the device on the selected line. -/
theorem Bench.InFrame.sent (h : b.InFrame line f) (m : WireMode) (v : Byte) {t : State} (hs : t.selId = line)
    (hr : t.rbuf = f.rbuf) : (b.sent m v t).InFrame line (f.sent b.blk.params m v) where
  selId := hs
  device := by
    simp only [Bench.sent, Bench.onSelected, h.selId, h.outs, List.getElem?_modify_eq, h.device]
    rfl
  outs := congrArg (· ++ [v]) h.outs
  reads := h.reads
  rbuf := hr

/-- What the bench does to the frame under way is what `FrameView.after` says. -/
theorem Bench.InFrame.okTurn (h : b.InFrame line f) (hb : b.blk.busy = true) {op : MicroOp} {f' : FrameView}
    (hf : f.after b.blk.params op = some f') : (b.okTurn op).InFrame line f' := by
  unfold Bench.okTurn
  generalize hv : b.value (some op) = v
  have hbusy : (b.asked.okOp op v).busy = true := (okOp_same _ op _).2.1.trans hb
  have hsel : (b.asked.okOp op v).selId = line :=
    ((okOp_selection _ op v).resolve_left (by rintro ⟨i, rfl⟩; cases hf)).1.trans h.selId
  have hrbuf : (b.asked.okOp op v).rbuf = f.rbuf ++ op.readBytes v :=
    (okOp_rbuf_eq _ op v).trans (congrArg (· ++ _) h.rbuf)
  generalize b.asked.okOp op v = t at hbusy hsel hrbuf ⊢
  cases op with
  | tx8 x =>
    cases hf
    rw [Bench.after, if_pos hbusy]
    exact h.sent .spi x hsel (hrbuf.trans (List.append_nil _))
  | qtx x =>
    cases hf
    rw [Bench.after, if_pos hbusy]
    exact h.sent .qspi x hsel (hrbuf.trans (List.append_nil _))
  | rx8 =>
    obtain ⟨x, hx, rfl⟩ := Option.map_eq_some_iff.1 hf
    have hbyte : v.setWidth 8 = x := by simp [← hv, Bench.value, h.spiByte hx]
    rw [Bench.after, if_pos hbusy]
    exact ⟨hsel, h.device, congrArg (· ++ _) h.outs, h.reads, hbyte ▸ hrbuf⟩
  | qrx =>
    obtain ⟨x, hx, rfl⟩ := Option.map_eq_some_iff.1 hf
    have hbyte : v.setWidth 8 = x := by simp [← hv, Bench.value, h.qspiByte hx]
    rw [Bench.after, if_pos hbusy]
    exact ⟨hsel, h.device, h.outs, congrArg (· + 1) h.reads, hbyte ▸ hrbuf⟩
  | qskip =>
    cases hf
    rw [Bench.after, if_pos hbusy]
    exact ⟨hsel, h.device, h.outs, congrArg (· + 1) h.reads, hrbuf.trans (List.append_nil _)⟩
  | drain =>
    cases hf
    rw [Bench.after, if_pos hbusy]
    exact ⟨hsel, h.device, h.outs, h.reads, hrbuf.trans (List.append_nil _)⟩
  | _ => cases hf

end

/-- A stretch of micro-ops inside a frame, answered as `FrameView.after` says, runs one turn each. -/
theorem Bench.Running.run_stretch {c : Bench.Context} {line : LineId} {stretch rest : List MicroOp} {b : Bench}
    {f f' : FrameView} (h : b.Running c (stretch ++ rest)) (hv : b.InFrame line f)
    (hf : stretch.foldlM (FrameView.after c.params) f = some f') :
    ∃ b', Bench.run stretch.length b = .next b' ∧ b'.Running c rest ∧ b'.InFrame line f' := by
  induction stretch generalizing b f with
  | nil => cases hf; exact ⟨b, rfl, h, hv⟩
  | cons op ops ih =>
    rw [List.foldlM_cons, Option.bind_eq_bind, Option.bind_eq_some_iff] at hf
    obtain ⟨f₁, h₁, hrest⟩ := hf
    obtain ⟨hturn, hrun⟩ := h.turn (FrameView.ofFrame_of_after h₁)
    have hp : c.params = b.blk.params := h.context ▸ rfl
    rw [List.length_cons, Bench.run_succ hturn]
    exact ih hrun (hv.okTurn h.busy (hp ▸ h₁)) hrest

end Sys2Proof.Machine

/-! SUPPORT. A command of one frame on the bench, from submission to response. -/

namespace Sys2Proof.Machine

/-- Between two commands: the block idle in mode `m`, the device `dev` on `line`, nothing to inject. -/
structure Bench.Ready (b : Bench) (p : Params) (m : WireMode) (line : LineId) (dev : Device) (rs : List Delivery)
    (script : List Event) : Prop where
  inv : Inv b.blk
  idle : b.blk.busy = false
  params : b.blk.params = p
  mode : b.blk.wireMode = m
  device : b.devs[line.toNat]? = some dev
  inject : b.inject = none
  responses : b.blk.responses = rs
  script : b.script = script

/-- `SEL` opens a frame with nothing sent and nothing read. -/
theorem Bench.okTurn_sel {b : Bench} {line : LineId} {dev : Device} (hd : b.devs[line.toNat]? = some dev)
    (hr : b.blk.rbuf = []) : (b.okTurn (.sel line)).InFrame line ⟨dev, [], 0, []⟩ where
  selId := rfl
  device := hd
  outs := rfl
  reads := rfl
  rbuf := hr

/-- `UNSEL` ends the frame for its device. -/
theorem Bench.InFrame.okTurn_unsel {b : Bench} {line : LineId} {f : FrameView} (h : b.InFrame line f) :
    (b.okTurn (.unsel line)).devs[line.toNat]? = some (endFrame b.blk.params b.blk.pinCfg f.outs f.dev) ∧
      (b.okTurn (.unsel line)).blk.rbuf = f.rbuf := by
  refine ⟨?_, h.rbuf⟩
  show (b.onSelected _)[line.toNat]? = _
  simp [Bench.onSelected, h.selId, h.device, h.outs]

/-- Past the last micro-op the block completes, and the bench is between two commands (R125). -/
theorem Bench.Running.complete {b : Bench} {c : Bench.Context} {line : LineId} {dev : Device} (h : b.Running c [])
    (hd : b.devs[line.toNat]? = some dev) :
    ∃ b', b.turn = .next b' ∧
      b'.Ready c.params c.pins line dev
        (c.responses ++ [{ host := c.host, response := completionResponse c.cmd b.blk.rbuf }]) c.script := by
  obtain ⟨inv, busy, left, inject, rfl⟩ := h
  have hlast : b.blk.upc = b.blk.prog.length := Nat.le_antisymm inv.upc (List.drop_eq_nil_iff.1 left)
  have hdue : b.blk.dueOp = none := by simp [State.dueOp, hlast]
  have hdone : Inv b.asked.complete := (Bench.inv_asked inv).complete busy hlast
  have hstep : step (b.blk.countDraw.withInputs [b.event]) = .next b.asked.complete := by
    rw [Bench.event, hdue]
    exact step_complete busy hlast rfl
  refine ⟨b.moved b.asked.complete, by simp [Bench.turn, busy, hstep, hdue, Bench.after], ?_⟩
  exact
    { inv := hdone
      idle := rfl
      params := rfl
      mode := (hdone.idle rfl).1.symm
      device := hd
      inject := by simp [Bench.moved, Bench.injectLeft, inject]
      responses := rfl
      script := rfl }

/-- A command that passes its checks is accepted and begins its expansion (R120). -/
theorem Bench.Ready.accept {b : Bench} {p : Params} {m : WireMode} {line : LineId} {dev : Device} {rs : List Delivery}
    {es : List Event} {h : Nat} {i : Instr} {wd : List Byte}
    (hr : b.Ready p m line dev rs (.submit h (encode i) wd :: es)) (hh : h < p.nHost)
    (hc : idleCheck (infoOf i) i.line i.len ((b.blk.withInputs []).present h wd) = none) :
    ∃ b', b.turn = .next b' ∧ b'.Running ⟨p, m, h, i.code, rs, es⟩ (expansionOf i p wd) ∧
      b'.devs[line.toNat]? = some dev ∧ b'.blk.rbuf = [] := by
  obtain ⟨inv, idle, rfl, rfl, device, inject, rfl, script⟩ := hr
  have hstep := step_submit_accepted (s := b.blk.withInputs [.submit h (encode i) wd]) rfl idle hh hc
  have hpresented : Inv ((b.blk.withInputs []).present h wd) := Inv.of_sameBlock (s := b.blk) rfl inv
  refine ⟨{ b with blk := _, script := es }, by simp [Bench.turn, idle, script, hstep]; rfl, ?_, device, rfl⟩
  exact
    { inv := hpresented.accept idle hh hc
      busy := rfl
      left := rfl
      inject := inject
      context := by simp [Bench.context, (inv.idle idle).1, infoOf_code] }

/-- A command of one frame, from submission to response: what the device makes of the frame, and the response with the
bytes the frame received (R118, R120 to R125). -/
theorem Bench.Ready.run_command {b : Bench} {p : Params} {m : WireMode} {line : LineId} {dev : Device}
    {rs : List Delivery} {es : List Event} {h : Nat} {i : Instr} {wd : List Byte} {ops : List MicroOp} {f : FrameView}
    (hr : b.Ready p m line dev rs (.submit h (encode i) wd :: es)) (hh : h < p.nHost)
    (hc : idleCheck (infoOf i) i.line i.len ((b.blk.withInputs []).present h wd) = none)
    (hx : expansionOf i p wd = frame line ops)
    (hf : ops.foldlM (FrameView.after p) ⟨dev, [], 0, []⟩ = some f) :
    ∃ b', Bench.run ((expansionOf i p wd).length + 2) b = .next b' ∧
      b'.Ready p m line (endFrame p m f.outs f.dev)
        (rs ++ [{ host := h, response := completionResponse i.code f.rbuf }]) es := by
  obtain ⟨b₁, hturn₁, hrun₁, hdev₁, hrbuf₁⟩ := hr.accept hh hc
  rw [hx] at hrun₁ ⊢
  obtain ⟨hturn₂, hrun₂⟩ := hrun₁.turn rfl
  have hbody : (ops ++ [MicroOp.drain]).foldlM (FrameView.after p) ⟨dev, [], 0, []⟩ = some f := by
    rw [List.foldlM_append, hf]
    rfl
  have hopen := Bench.okTurn_sel hdev₁ hrbuf₁
  obtain ⟨b₃, hbody₃, hrun₃, hview₃⟩ :=
    Bench.Running.run_stretch (stretch := ops ++ [.drain]) (rest := [.unsel line])
      (by simpa [frame] using hrun₂) hopen hbody
  obtain ⟨hturn₄, hrun₄⟩ := hrun₃.turn rfl
  obtain ⟨hdev₄, hrbuf₄⟩ := hview₃.okTurn_unsel
  obtain ⟨b₅, hturn₅, hready⟩ := hrun₄.complete hdev₄
  obtain ⟨hparams, hpins⟩ : b₃.blk.params = p ∧ b₃.blk.pinCfg = m :=
    ⟨congrArg Bench.Context.params hrun₃.context, congrArg Bench.Context.pins hrun₃.context⟩
  rw [hrbuf₄, hparams, hpins] at hready
  refine ⟨b₅, ?_, hready⟩
  have hlen : (frame line ops).length + 2 = (ops ++ [MicroOp.drain]).length + 2 + 1 + 1 := by simp [frame]
  calc Bench.run ((frame line ops).length + 2) b
      = Bench.run ((ops ++ [MicroOp.drain]).length + 2) (b₁.okTurn (.sel line)) := by
        rw [hlen, Bench.run_succ hturn₁, Bench.run_succ hturn₂]
    _ = .next b₅ := by
        rw [Bench.run_add hbody₃, Bench.run_succ hturn₄, Bench.run_succ hturn₅]
        rfl

end Sys2Proof.Machine

/-! SUPPORT. What the ideal device makes of the bytes sent to it and answers to the reads, under either mode
(95_test_vectors section 1): a write frame writes its data from its address on, and a read frame reads from its address
on. -/

namespace Sys2Proof.Machine

/-- The micro-op that sends `v` in mode `m` (R113). -/
def sendOp (m : WireMode) (v : Byte) : MicroOp :=
  match m with
  | .spi => .tx8 v
  | .qspi => .qtx v

/-- The micro-op that reads a byte in mode `m` (R113). -/
def readOp (m : WireMode) : MicroOp :=
  match m with
  | .spi => .rx8
  | .qspi => .qrx

/-- Opcode, address and write data go out one byte after the other (R113). -/
theorem body_write (op : Byte) (a : Addr) (data : List Byte) (m : WireMode) :
    body [.opc op, .adr a, .wr data] m = ([op] ++ addrBytes a ++ data).map (sendOp m) := by
  cases m <;> simp [body, mux, addrBytes, sendOp]

theorem frameAddr_append {rest : List Byte} (h : 3 ≤ rest.length) (more : List Byte) :
    frameAddr (rest ++ more) = frameAddr rest := by
  match rest, h with
  | _ :: _ :: _ :: _, _ => rfl

/-- The address phase carries its address (R53, R82). -/
theorem frameAddr_addrBytes (a : Addr) : frameAddr (addrBytes a) = a.toNat := by
  simp only [frameAddr, addrBytes, BitVec.extractLsb'_toNat, Nat.shiftRight_eq_div_pow]
  have := a.isLt
  omega

/-- Under SPI the device of a read frame, its address and filler past, answers the array's next byte (95 section 1). -/
theorem spiAnswer_fetch (pad : Nat) (dev : Device) {rest : List Byte} (h : 4 ≤ rest.length) (v : Byte) :
    spiAnswer pad dev (0x0B :: (rest ++ [v])) =
      some (memByte dev.mem ((frameAddr rest + (rest.length - 4)) % arraySize)) := by
  have hlong : ¬(rest ++ [v]).length ≤ 4 := by
    rw [List.length_append, List.length_singleton]
    omega
  have hoffset : (rest ++ [v]).length - 5 = rest.length - 4 := by
    rw [List.length_append, List.length_singleton]
    omega
  rw [spiAnswer, if_pos rfl, if_neg hlong, frameAddr_append (Nat.le_of_succ_le h), hoffset]

/-- Under QSPI the device of a read frame, its three dummy reads past, answers the array's next byte (95 section 1). -/
theorem qspiAnswer_fetch (dev : Device) (rest : List Byte) {reads : Nat} (h : 3 ≤ reads) :
    qspiAnswer dev (0xEB :: rest) reads =
      some (memByte dev.mem ((frameAddr rest + (reads - 3)) % arraySize)) := by
  rw [qspiAnswer, if_pos rfl, if_neg (Nat.not_lt.2 h)]

namespace FrameView

/-- Bytes sent, one micro-op each, go through `sent` in their order. -/
theorem foldlM_sends (p : Params) (m : WireMode) (vs : List Byte) (f : FrameView) :
    (vs.map (sendOp m)).foldlM (FrameView.after p) f = some (vs.foldl (sent p m) f) := by
  induction vs generalizing f with
  | nil => rfl
  | cons v vs ih =>
    rw [List.map_cons, List.foldlM_cons, List.foldl_cons, ← ih]
    cases m <;> rfl

/-- A byte is stored nowhere in a frame of another opcode, or while the address is under way. -/
theorem sent_unstored {p : Params} {m : WireMode} {f : FrameView} {v : Byte}
    (h : (f.outs ++ [v]).head? ≠ some (writeOpcode p m) ∨ f.outs.length < 4) :
    f.sent p m v = { f with outs := f.outs ++ [v] } := by
  have hstore : storeByte (writeOpcode p m) f.dev (f.outs ++ [v]) v = f.dev := by
    cases hf : f.outs with
    | nil => simp [storeByte]
    | cons op rest =>
      refine if_neg fun ⟨hop, (hlen : 4 ≤ (rest ++ [v]).length)⟩ => ?_
      rw [hf] at h
      rcases h with h | h
      · exact h (congrArg some hop)
      · simp only [List.length_append, List.length_cons, List.length_nil] at h hlen
        omega
  simp [sent, hstore]

/-- Several such bytes are stored nowhere. -/
theorem sends_unstored {p : Params} {m : WireMode} (vs : List Byte) {f : FrameView}
    (h : (f.outs ++ vs).head? ≠ some (writeOpcode p m) ∨ f.outs.length + vs.length ≤ 4) :
    vs.foldl (sent p m) f = { f with outs := f.outs ++ vs } := by
  induction vs generalizing f with
  | nil => simp
  | cons v vs ih =>
    have hfirst : (f.outs ++ [v]).head? = (f.outs ++ v :: vs).head? := by cases f.outs <;> rfl
    rw [List.length_cons] at h
    rw [List.foldl_cons, sent_unstored (by rw [hfirst]; exact h.imp_right (by omega)), ih]
    · simp
    · simp only [List.append_assoc, List.singleton_append, List.length_append, List.length_singleton]
      exact h.imp_right (by omega)

/-- Data bytes of a write frame are written from its address on, in their order (95 section 1). -/
theorem sends_stored {p : Params} {m : WireMode} (data : List Byte) {f : FrameView} {rest : List Byte}
    (hf : f.dev.follows m = true) (ho : f.outs = writeOpcode p m :: rest) (hlen : 3 ≤ rest.length) :
    data.foldl (sent p m) f =
      { f with
        outs := f.outs ++ data
        dev := { f.dev with mem := memWrite f.dev.mem (frameAddr rest + (rest.length - 3)) data } } := by
  induction data generalizing f rest with
  | nil => simp [memWrite]
  | cons v vs ih =>
    have hsent : f.sent p m v =
        { f with
          outs := f.outs ++ [v]
          dev := { f.dev with mem := setByte f.dev.mem ((frameAddr rest + (rest.length - 3)) % arraySize) v } } := by
      simp [sent, hf, ho, storeByte, hlen, frameAddr_append hlen]
    have hnext : frameAddr (rest ++ [v]) + ((rest ++ [v]).length - 3) = frameAddr rest + (rest.length - 3) + 1 := by
      rw [frameAddr_append hlen, List.length_append, List.length_singleton]
      omega
    rw [List.foldl_cons, hsent]
    refine (ih (rest := rest ++ [v]) (by exact hf) (by simp [ho]) (by simp; omega)).trans ?_
    rw [hnext]
    simp [memWrite]

/-- The next byte read in mode `m` is the one at `addr` (95 section 1). -/
def Fetches (m : WireMode) (f : FrameView) (addr : Nat) : Prop :=
  match m with
  | .spi => ∃ rest, f.outs = 0x0B :: rest ∧ 4 ≤ rest.length ∧ addr = frameAddr rest + (rest.length - 4)
  | .qspi => ∃ rest, f.outs = 0xEB :: rest ∧ 3 ≤ f.reads ∧ addr = frameAddr rest + (f.reads - 3)

/-- A read gives the byte at the frame's present address and moves on to the next. -/
theorem after_readOp {p : Params} {m : WireMode} {f : FrameView} {addr : Nat} (hf : f.dev.follows m = true)
    (ha : f.Fetches m addr) :
    ∃ f', f.after p (readOp m) = some f' ∧ f'.dev = f.dev ∧
      f'.rbuf = f.rbuf ++ [memByte f.dev.mem (addr % arraySize)] ∧ f'.Fetches m (addr + 1) := by
  cases m with
  | spi =>
    obtain ⟨rest, ho, hlen, rfl⟩ := ha
    have hanswer : f.answer p .spi = some (memByte f.dev.mem ((frameAddr rest + (rest.length - 4)) % arraySize)) := by
      rw [answer, if_pos hf, ho]
      exact spiAnswer_fetch _ _ hlen _
    refine ⟨_, congrArg (Option.map _) hanswer, rfl, rfl, rest ++ [Config.filler], by simp [ho], by simp; omega, ?_⟩
    rw [frameAddr_append (Nat.le_of_succ_le hlen), List.length_append, List.length_singleton]
    omega
  | qspi =>
    obtain ⟨rest, ho, hreads, rfl⟩ := ha
    have hanswer : f.answer p .qspi = some (memByte f.dev.mem ((frameAddr rest + (f.reads - 3)) % arraySize)) := by
      rw [answer, if_pos hf, ho]
      exact qspiAnswer_fetch _ _ hreads
    exact ⟨_, congrArg (Option.map _) hanswer, rfl, rfl, rest, ho, Nat.le_succ_of_le hreads, by simp; omega⟩

/-- A stretch of reads gives the run of the array from the frame's present address (20_memory R58, 95 section 1). -/
theorem foldlM_reads (p : Params) {m : WireMode} (n : Nat) {f : FrameView} {addr : Nat} (hf : f.dev.follows m = true)
    (ha : f.Fetches m addr) :
    ∃ f', (List.replicate n (readOp m)).foldlM (FrameView.after p) f = some f' ∧
      f'.rbuf = f.rbuf ++ memRead f.dev.mem addr n := by
  induction n generalizing f addr with
  | zero => exact ⟨f, rfl, (List.append_nil _).symm⟩
  | succ n ih =>
    obtain ⟨f₁, h₁, hdev, hrbuf, hnext⟩ := after_readOp (p := p) hf ha
    obtain ⟨f', hrest, hr⟩ := ih (hdev ▸ hf) hnext
    refine ⟨f', ?_, ?_⟩
    · rw [List.replicate_succ, List.foldlM_cons, h₁]
      exact hrest
    · rw [hr, hrbuf, hdev, memRead, List.append_assoc]
      rfl

end FrameView

/-- The opcode with which a device in mode `m` is read (R80). -/
def readOpcode (m : WireMode) : Byte :=
  match m with
  | .spi => 0x0B
  | .qspi => 0xEB

/-- The dummy clocks between address and data of a read in mode `m` (R112). -/
def readDummy (m : WireMode) : Nat :=
  match m with
  | .spi => 8
  | .qspi => 6

/-- The read frame under SPI: one filler byte stands for the eight dummy clocks (R113, R115). -/
theorem body_read_spi (a : Addr) (n : Nat) :
    body [.opc (readOpcode .spi), .adr a, .dummy (readDummy .spi), .rd n] .spi =
      ([0x0B] ++ addrBytes a ++ [Config.filler]).map (sendOp .spi) ++ List.replicate n (readOp .spi) := by
  simp only [body, List.flatMap_cons, List.flatMap_nil, List.append_nil]
  rfl

/-- The read frame under QSPI: three discarded reads stand for the six dummy clocks (R113, R115). -/
theorem body_read_qspi (a : Addr) (n : Nat) :
    body [.opc (readOpcode .qspi), .adr a, .dummy (readDummy .qspi), .rd n] .qspi =
      ([0xEB] ++ addrBytes a).map (sendOp .qspi) ++ ([.qskip, .qskip, .qskip] ++ List.replicate n (readOp .qspi)) := by
  simp only [body, List.flatMap_cons, List.flatMap_nil, List.append_nil]
  rfl

/-- A write frame leaves its data in the device's array. -/
theorem FrameView.foldlM_write {p : Params} {m : WireMode} {dev : Device} (hf : dev.follows m = true) (a : Addr)
    (data : List Byte) :
    (body [.opc (writeOpcode p m), .adr a, .wr data] m).foldlM (FrameView.after p) ⟨dev, [], 0, []⟩ =
      some ⟨{ dev with mem := memWrite dev.mem a.toNat data }, writeOpcode p m :: (addrBytes a ++ data), 0, []⟩ := by
  have hopen : ([writeOpcode p m] ++ addrBytes a).foldl (sent p m) ⟨dev, [], 0, []⟩ =
      ⟨dev, writeOpcode p m :: addrBytes a, 0, []⟩ := sends_unstored _ (.inr (by simp [addrBytes]))
  rw [body_write, foldlM_sends, List.foldl_append, hopen, sends_stored data hf rfl (by simp [addrBytes]),
    frameAddr_addrBytes]
  rfl

/-- A read frame receives the run of the device's array from its address: before the data go the opcode, the address and
then, under SPI, the filler of the dummy phase, which no device stores, or, under QSPI, three discarded reads. -/
theorem FrameView.foldlM_read {p : Params} {m : WireMode} {dev : Device} (hf : dev.follows m = true) (a : Addr)
    (n : Nat) :
    ∃ f, (body [.opc (readOpcode m), .adr a, .dummy (readDummy m), .rd n] m).foldlM (FrameView.after p)
        ⟨dev, [], 0, []⟩ = some f ∧ f.rbuf = memRead dev.mem a.toNat n := by
  cases m with
  | spi =>
    have hopen : ([0x0B] ++ addrBytes a ++ [Config.filler]).foldl (sent p .spi) ⟨dev, [], 0, []⟩ =
        ⟨dev, 0x0B :: (addrBytes a ++ [Config.filler]), 0, []⟩ := sends_unstored _ (.inl (by simp [writeOpcode]))
    rw [body_read_spi, List.foldlM_append, foldlM_sends, hopen]
    have hfetch : Fetches .spi ⟨dev, 0x0B :: (addrBytes a ++ [Config.filler]), 0, []⟩ a.toNat :=
      ⟨addrBytes a ++ [Config.filler], rfl, by simp [addrBytes],
        by rw [frameAddr_append (by simp [addrBytes]), frameAddr_addrBytes]; rfl⟩
    exact foldlM_reads p n hf hfetch
  | qspi =>
    have hopen : ([0xEB] ++ addrBytes a).foldl (sent p .qspi) ⟨dev, [], 0, []⟩ =
        ⟨dev, 0xEB :: addrBytes a, 0, []⟩ := sends_unstored _ (.inr (by simp [addrBytes]))
    rw [body_read_qspi, List.foldlM_append, foldlM_sends, hopen]
    have hfetch : Fetches .qspi ⟨dev, 0xEB :: addrBytes a, 3, []⟩ a.toNat :=
      ⟨addrBytes a, rfl, Nat.le_refl 3, by simp [frameAddr_addrBytes]⟩
    exact foldlM_reads p n hf hfetch

end Sys2Proof.Machine

/-! SUPPORT. The round trip of 20_memory R58, once for both modes, and its two statements. -/

namespace Sys2Proof.Machine

/-- The write command of mode `m` (R167, R169). -/
def writeCommand (m : WireMode) (cs : LineId) (a : Addr) (l : Len) : Instr :=
  match m with
  | .spi => .fwr cs a l
  | .qspi => .qfwr cs a l

/-- The read command of mode `m` (R166, R168). -/
def readCommand (m : WireMode) (cs : LineId) (a : Addr) (l : Len) : Instr :=
  match m with
  | .spi => .frd cs a l
  | .qspi => .qfrd cs a l

theorem expansionOf_writeCommand (p : Params) (m : WireMode) (cs : LineId) (a : Addr) (l : Len) (data : List Byte) :
    expansionOf (writeCommand m cs a l) p data = frame cs (body [.opc (writeOpcode p m), .adr a, .wr data] m) := by
  cases m <;> rfl

theorem expansionOf_readCommand (p : Params) (m : WireMode) (cs : LineId) (a : Addr) (l : Len) (wd : List Byte) :
    expansionOf (readCommand m cs a l) p wd =
      frame cs (body [.opc (readOpcode m), .adr a, .dummy (readDummy m), .rd l.toNat] m) := by
  cases m <;> rfl

/-- The end of a write frame clears the reset latch and changes nothing else, where the exit pattern does not begin with
the write opcode (95 section 1). -/
theorem endFrame_write {p : Params} {m : WireMode} {dev : Device} (hf : dev.follows m = true)
    (hexit : m = .qspi → p.exitSequence.head? ≠ some p.qspiWriteOpcode) (rest : List Byte) :
    endFrame p m (writeOpcode p m :: rest) dev = { dev with rsten := some false } := by
  cases m with
  | spi => simp [endFrame, hf, writeOpcode]
  | qspi =>
    have hne : writeOpcode p .qspi :: rest ≠ p.exitSequence := fun h => hexit rfl (h ▸ rfl)
    simp [endFrame, hf, hne]

section
variable {b : Bench} {p : Params} {m : WireMode} {line : LineId} {dev : Device} {rs : List Delivery} {es : List Event}
  {h : Nat} {a : Addr} {l : Len} (hh : h < p.nHost) (hline : line.toNat < p.nCs) (hl : l.toNat ≤ p.maxLen.toNat)
  (hf : dev.follows m = true)
include hh hline hl hf

/-- A write command over the ideal device leaves its data in the device's array (R58, R167, R169). -/
theorem Bench.Ready.run_write {data : List Byte}
    (hr : b.Ready p m line dev rs (.submit h (encode (writeCommand m line a l)) data :: es))
    (hd : data.length = l.toNat) (hexit : m = .qspi → p.exitSequence.head? ≠ some p.qspiWriteOpcode) :
    ∃ b', Bench.run ((expansionOf (writeCommand m line a l) p data).length + 2) b = .next b' ∧
      b'.Ready p m line { dev with mem := memWrite dev.mem a.toNat data, rsten := some false }
        (rs ++ [{ host := h, response := plainResponse .ok [] }]) es := by
  have hc : idleCheck (infoOf (writeCommand m line a l)) (writeCommand m line a l).line (writeCommand m line a l).len
      ((b.blk.withInputs []).present h data) = none := by
    obtain ⟨-, -, rfl, hm, -⟩ := hr
    cases m <;> exact idleCheck_data_eq_none hm hline hl fun _ => hd
  obtain ⟨b', hrun, hready⟩ := hr.run_command hh hc (expansionOf_writeCommand ..) (FrameView.foldlM_write hf a data)
  rw [endFrame_write (by exact hf) hexit] at hready
  exact ⟨b', hrun, by cases m <;> exact hready⟩

/-- A read command over the ideal device returns the run of the device's array (R58, R166, R168). -/
theorem Bench.Ready.run_read {wd : List Byte}
    (hr : b.Ready p m line dev rs (.submit h (encode (readCommand m line a l)) wd :: es)) :
    ∃ b' dev', Bench.run ((expansionOf (readCommand m line a l) p wd).length + 2) b = .next b' ∧
      b'.Ready p m line dev'
        (rs ++ [{ host := h, response := plainResponse .ok (memRead dev.mem a.toNat l.toNat) }]) es := by
  have hc : idleCheck (infoOf (readCommand m line a l)) (readCommand m line a l).line (readCommand m line a l).len
      ((b.blk.withInputs []).present h wd) = none := by
    obtain ⟨-, -, rfl, hm, -⟩ := hr
    cases m <;> exact idleCheck_data_eq_none hm hline hl nofun
  obtain ⟨f, hfold, hrbuf⟩ := FrameView.foldlM_read (p := p) hf a l.toNat
  obtain ⟨b', hrun, hready⟩ := hr.run_command hh hc (expansionOf_readCommand ..) hfold
  rw [hrbuf] at hready
  exact ⟨b', endFrame p m f.outs f.dev, hrun, by cases m <;> exact hready⟩

/-- A write command and then the read command of the same line, address and length return the bytes written, where they
are no more than the array holds (R58). -/
theorem Bench.Ready.roundTrip {data : List Byte}
    (hr : b.Ready p m line dev rs [.submit h (encode (writeCommand m line a l)) data,
      .submit h (encode (readCommand m line a l)) []])
    (hd : data.length = l.toNat) (hsize : data.length ≤ arraySize) (hmem : Memory.wf dev.mem = true)
    (hexit : m = .qspi → p.exitSequence.head? ≠ some p.qspiWriteOpcode) :
    ∃ b', Bench.run ((expansionOf (writeCommand m line a l) p data).length + 2 +
        ((expansionOf (readCommand m line a l) p []).length + 2)) b = .next b' ∧ b'.blk.busy = false ∧
      b'.blk.responses = rs ++
        [{ host := h, response := plainResponse .ok [] }, { host := h, response := plainResponse .ok data }] := by
  obtain ⟨b₁, hrun₁, hready₁⟩ := hr.run_write hh hline hl hf hd hexit
  obtain ⟨b₂, dev₂, hrun₂, hready₂⟩ := hready₁.run_read hh hline hl (by exact hf)
  refine ⟨b₂, (Bench.run_add hrun₁).trans hrun₂, hready₂.idle, ?_⟩
  rw [hready₂.responses, ← hd, memRead_memWrite _ _ hmem hsize, List.append_assoc]
  rfl

end

theorem Device.follows_iff (dev : Device) (m : WireMode) :
    dev.follows m = true ↔ dev.known = true ∧ dev.mode = m := by
  simp [Device.follows]

/-- Settles O59: the round trip of the write and the read command of SPI. -/
theorem roundTripUnderSpi : Obligations.RoundTripUnderSpi := by
  intro b h cs a l data dev hinv hidle hmode hh hcs hl hd hsize hdev hknown hdmode hmem hinject hscript
  have hready : b.Ready b.blk.params .spi cs dev b.blk.responses [.submit h (encode (writeCommand .spi cs a l)) data,
      .submit h (encode (readCommand .spi cs a l)) []] := ⟨hinv, hidle, rfl, hmode, hdev, hinject, rfl, hscript⟩
  obtain ⟨b', hrun, hend⟩ :=
    hready.roundTrip hh hcs hl ((Device.follows_iff ..).2 ⟨hknown, hdmode⟩) hd hsize hmem nofun
  have hturns : (expansionOf (.fwr cs a l) b.blk.params data).length + 2 +
      ((expansionOf (.frd cs a l) b.blk.params []).length + 2) = 19 + 2 * l.toNat := by
    simp [expansionOf_fwr, expansionOf_frd, hd]
    omega
  exact ⟨b', hturns ▸ hrun, hend⟩

/-- Settles O60: the round trip of the write and the read command of QSPI. -/
theorem roundTripUnderQspi : Obligations.RoundTripUnderQspi := by
  intro b h cs a l data dev hinv hidle hmode hh hcs hl hd hsize hdev hknown hdmode hmem hinject hexit hscript
  have hready : b.Ready b.blk.params .qspi cs dev b.blk.responses [.submit h (encode (writeCommand .qspi cs a l)) data,
      .submit h (encode (readCommand .qspi cs a l)) []] := ⟨hinv, hidle, rfl, hmode, hdev, hinject, rfl, hscript⟩
  obtain ⟨b', hrun, hend⟩ :=
    hready.roundTrip hh hcs hl ((Device.follows_iff ..).2 ⟨hknown, hdmode⟩) hd hsize hmem fun _ => hexit
  have hturns : (expansionOf (.qfwr cs a l) b.blk.params data).length + 2 +
      ((expansionOf (.qfrd cs a l) b.blk.params []).length + 2) = 21 + 2 * l.toNat := by
    simp [expansionOf_qfwr, expansionOf_qfrd, hd]
    omega
  exact ⟨b', hturns ▸ hrun, hend⟩

end Sys2Proof.Machine

/-! SUPPORT. The decoder and the encoder as inverses of each other, the fields read by the decoder as numbers, and the
lines of the assembler (30_encoding R71, R76 to R78, R86, R88). -/

namespace Sys2Proof

open Machine

/-- Settles O1, by `decode_encode`. -/
theorem decodeOfEncodeIsTheCommand : Obligations.DecodeOfEncodeIsTheCommand := fun i => decode_encode i

/-- The ten command codes are 1 to 10 (R76). -/
theorem Instr.code_range (i : Instr) : 1 ≤ i.code.toNat ∧ i.code.toNat ≤ 10 := by cases i <;> simp [Instr.code]

/-- A word is that of a command where each of its four fields is the command's, as numbers (R71, R86). -/
theorem eq_encode_of_fields {w : CmdWord} {i : Instr} (hcode : w.toNat % 16 = i.code.toNat)
    (hcs : i.line.toNat = w.toNat / 16 % 16) (haddr : i.addr.toNat = w.toNat / 256 % 2 ^ 24)
    (hlen : i.len.toNat = w.toNat / 2 ^ 32) : w = encode i := by
  apply BitVec.eq_of_toNat_eq
  rw [encode, packWord_toNat]
  omega

/-- Everything the decoder can answer: the command whose word it was given, or that word's code where it is reserved
(R77, R78). -/
theorem decode_cases (w : CmdWord) :
    (∃ i, decode w = .cmd i ∧ w = encode i) ∨
    (decode w = .reserved (fieldCmd w) ∧ (w.toNat % 16 = 0 ∨ 11 ≤ w.toNat % 16)) := by
  unfold decode
  rw [fieldCmd_toNat]
  split
  case h_11 => exact .inr ⟨rfl, by simp only [imp_false] at *; omega⟩
  all_goals
    next hcode =>
      exact .inl ⟨_, rfl, eq_encode_of_fields hcode (fieldCs_toNat w) (fieldAddr_toNat w) (fieldLen_toNat w)⟩

/-- A reserved code decodes to itself: it is the code of no command (R77, R78). -/
theorem decode_reserved {w : CmdWord} (h : w.toNat % 16 = 0 ∨ 11 ≤ w.toNat % 16) :
    decode w = .reserved (fieldCmd w) := by
  rcases decode_cases w with ⟨i, -, rfl⟩ | ⟨hres, -⟩
  · have hcode : (encode i).toNat % 16 = i.code.toNat := (Laws.FieldsInWord.of_packWord i).1
    have hrange := i.code_range
    omega
  · exact hres

/-- Settles O2: the decoder answers a command for that command's word alone, and a reserved code for the rest. -/
theorem encodeOfDecodeIsTheWord : Obligations.EncodeOfDecodeIsTheWord := by
  intro w
  rcases decode_cases w with ⟨i, hcmd, hw⟩ | ⟨hres, hcode⟩
  · refine ⟨fun j hj => ?_, fun c hc => ?_⟩
    · obtain rfl : i = j := Decoded.cmd.inj (hcmd.symm.trans hj)
      exact hw.symm
    · cases hcmd.symm.trans hc
  · refine ⟨fun j hj => ?_, fun c hc => ?_⟩
    · cases hres.symm.trans hj
    · obtain rfl : fieldCmd w = c := Decoded.reserved.inj (hres.symm.trans hc)
      exact ⟨fieldCmd_toNat w, hcode⟩

/-- Settles O3: a word with the fields of a command is that command's word. -/
theorem decodeReadsTheCommandAndItsFields : Obligations.DecodeReadsTheCommandAndItsFields := by
  intro w cs addr len hcs haddr hlen
  have hcmd (i : Instr) (hline : i.line = cs := by rfl) (ha : i.addr = addr := by rfl) (hl : i.len = len := by rfl)
      (hcode : w.toNat % 16 = i.code.toNat) : decode w = .cmd i := by
    rw [eq_encode_of_fields hcode (hline ▸ hcs) (ha ▸ haddr) (hl ▸ hlen), decode_encode]
  exact ⟨fun h => hcmd (.rsten cs addr len) (hcode := h), fun h => hcmd (.rst cs addr len) (hcode := h),
    fun h => hcmd (.rdid cs addr len) (hcode := h), fun h => hcmd (.tglbl cs addr len) (hcode := h),
    fun h => hcmd (.frd cs addr len) (hcode := h), fun h => hcmd (.fwr cs addr len) (hcode := h),
    fun h => hcmd (.qen cs addr len) (hcode := h), fun h => hcmd (.qfrd cs addr len) (hcode := h),
    fun h => hcmd (.qfwr cs addr len) (hcode := h), fun h => hcmd (.qex cs addr len) (hcode := h),
    fun h => ⟨fieldCmd w, fieldCmd_toNat w, decode_reserved h⟩⟩

/-- Settles O4: each word is the encoding of its command, or has a reserved code. -/
theorem writtenOutWordsDecode : Obligations.WrittenOutWordsDecode :=
  ⟨decode_encode (.rsten 0 0 0), decode_encode (.rst 1 0 0), decode_encode (.rdid 1 0 0),
    decode_encode (.tglbl 1 0 0), decode_encode (.frd 1 0xABCDEF 0), decode_encode (.fwr 1 0x123456 2),
    decode_encode (.qen 0 0x123456 0xFFFFFFFF), decode_encode (.qfrd 0 0xFFFFFF 4),
    decode_encode (.qfwr 0 0x000100 1), decode_encode (.qex 15 0 0),
    decode_reserved (.inr (by decide)), decode_reserved (.inl (by decide))⟩

end Sys2Proof

namespace Sys2Proof.Machine

theorem asmInRange_iff {cs addr len : Nat} :
    asmInRange cs addr len = true ↔ cs ≤ 15 ∧ addr ≤ 0xFFFFFF ∧ len ≤ 2 ^ 32 - 1 := by
  simp [asmInRange, and_assoc]

/-- The request of a line whose operands are in range: its word as a number, and its write data (R86). -/
theorem asmRequest_inRange {mk : LineId → Addr → Len → Instr} {code : Nat} (hcode : code < 16)
    (hmk : ∀ c a l, encode (mk c a l) = packWord (BitVec.ofNat 4 code) c a l) {cs addr len : Nat}
    (h : cs ≤ 15 ∧ addr ≤ 0xFFFFFF ∧ len ≤ 2 ^ 32 - 1) (wdata : List Byte) :
    ∃ r, asmRequest mk cs addr len wdata = some r ∧
      r.word.toNat = len * 2 ^ 32 + addr * 2 ^ 8 + cs * 16 + code ∧ r.wdata = wdata := by
  refine ⟨_, if_pos (asmInRange_iff.2 h), ?_, rfl⟩
  rw [hmk, packWord_toNat, BitVec.toNat_ofNat, BitVec.toNat_ofNat, BitVec.toNat_ofNat, BitVec.toNat_ofNat]
  omega

/-- A line with an operand out of range is refused (R86). -/
theorem asmRequest_refused (mk : LineId → Addr → Len → Instr) {cs addr len : Nat}
    (h : 15 < cs ∨ 0xFFFFFF < addr ∨ 2 ^ 32 - 1 < len) (wdata : List Byte) :
    asmRequest mk cs addr len wdata = none :=
  if_neg fun hr => by
    have hrange := asmInRange_iff.1 hr
    omega

/-- The word of a request decodes to the command of its line (R78, R86). -/
theorem decode_of_asmRequest {mk : LineId → Addr → Len → Instr} {cs addr len : Nat} {wdata : List Byte}
    {r : Request} (h : asmRequest mk cs addr len wdata = some r) :
    decode r.word = .cmd (mk (BitVec.ofNat 4 cs) (BitVec.ofNat 24 addr) (BitVec.ofNat 32 len)) := by
  obtain ⟨-, hr⟩ := Option.ite_none_right_eq_some.1 h
  obtain rfl := Option.some.inj hr
  exact decode_encode _

/-- The two answers to a line with these operands, by their ranges (R86). -/
theorem asmRequest_answers {mk : LineId → Addr → Len → Instr} {code : Nat} (hcode : code < 16)
    (hmk : ∀ c a l, encode (mk c a l) = packWord (BitVec.ofNat 4 code) c a l) (cs addr len : Nat)
    (wdata : List Byte) :
    (cs ≤ 15 ∧ addr ≤ 0xFFFFFF ∧ len ≤ 2 ^ 32 - 1 → ∃ r, asmRequest mk cs addr len wdata = some r ∧
      r.word.toNat = len * 2 ^ 32 + addr * 2 ^ 8 + cs * 16 + code ∧ r.wdata = wdata) ∧
    (15 < cs ∨ 0xFFFFFF < addr ∨ 2 ^ 32 - 1 < len → asmRequest mk cs addr len wdata = none) :=
  ⟨fun h => asmRequest_inRange hcode hmk h wdata, fun h => asmRequest_refused mk h wdata⟩

/-- The two answers to a line that has `cs` alone, by its range (R86). -/
theorem asmRequest_answers_line {mk : LineId → Addr → Len → Instr} {code : Nat} (hcode : code < 16)
    (hmk : ∀ c a l, encode (mk c a l) = packWord (BitVec.ofNat 4 code) c a l) (cs : Nat) :
    (cs ≤ 15 → ∃ r, asmRequest mk cs 0 0 [] = some r ∧ r.word.toNat = cs * 16 + code ∧ r.wdata = []) ∧
    (15 < cs → asmRequest mk cs 0 0 [] = none) := by
  obtain ⟨inRange, refused⟩ := asmRequest_answers hcode hmk cs 0 0 []
  exact ⟨fun h => by simpa using inRange ⟨h, by simp⟩, fun h => refused (.inl h)⟩

/-- Every word the assembler makes decodes to a command whose ignored fields are 0 (R72, R86). -/
theorem decode_of_assemble {l : AsmLine} {r : Request} (h : assemble l = some r) :
    ∃ i, decode r.word = .cmd i ∧ i.wellFormed = true := by
  cases l with
  | status => cases h
  | _ => exact ⟨_, decode_of_asmRequest h, rfl⟩

/-- Settles O5: every line is a request of the assembler, with its operands in range or refused. -/
theorem assembledLinesAreTheirWords : Obligations.AssembledLinesAreTheirWords := by
  refine ⟨?_, ?_, ?_, rfl, rfl, rfl, fun _ _ => decode_of_assemble⟩
  · rintro cs code l (⟨rfl, rfl⟩ | ⟨rfl, rfl⟩ | ⟨rfl, rfl⟩ | ⟨rfl, rfl⟩)
    · exact asmRequest_answers_line (mk := .rsten) (code := 1) (by decide) (fun _ _ _ => rfl) cs
    · exact asmRequest_answers_line (mk := .rst) (code := 2) (by decide) (fun _ _ _ => rfl) cs
    · exact asmRequest_answers_line (mk := .rdid) (code := 3) (by decide) (fun _ _ _ => rfl) cs
    · exact asmRequest_answers_line (mk := .tglbl) (code := 4) (by decide) (fun _ _ _ => rfl) cs
  · rintro cs addr len code l (⟨rfl, rfl⟩ | ⟨rfl, rfl⟩)
    · exact asmRequest_answers (mk := .frd) (code := 5) (by decide) (fun _ _ _ => rfl) cs addr len []
    · exact asmRequest_answers (mk := .qfrd) (code := 8) (by decide) (fun _ _ _ => rfl) cs addr len []
  · rintro cs addr code bytes l (⟨rfl, rfl⟩ | ⟨rfl, rfl⟩)
    · exact asmRequest_answers (mk := .fwr) (code := 6) (by decide) (fun _ _ _ => rfl) cs addr bytes.length bytes
    · exact asmRequest_answers (mk := .qfwr) (code := 9) (by decide) (fun _ _ _ => rfl) cs addr bytes.length bytes

end Sys2Proof.Machine

/-! SUPPORT. A submitted word as the machine runs it, the address phase, the bit-level trace of an expansion, and the
byte that opens each frame (30_encoding R70, R81, R82, R85; 40_transport_and_phases R103 to R106, R118, R120). -/

namespace Sys2Proof.Machine

/-- The word of a submission by a host that may submit is decoded and run (R78, R120). -/
theorem step_submit {s : State} {h : Nat} {w : CmdWord} {wdata : List Byte} {es : List Event} {i : Instr}
    (hin : s.inputs = .submit h w wdata :: es) (hmay : s.maySubmit h = true) (hdec : decode w = .cmd i) :
    step s = exec i ((s.withInputs es).present h wdata) := by
  have hmay' : (s.withInputs es).maySubmit h = true := hmay
  simp only [step, turn, hin, takeEvent, hmay', if_true, submitWord, hdec]

/-- A host may submit where it exists and has no request outstanding (R7, R128). -/
theorem State.maySubmit_iff (s : State) (h : Nat) :
    s.maySubmit h = true ↔ h < s.params.nHost ∧ ¬(s.busy = true ∧ s.curHost = h) := by
  simp [State.maySubmit, State.waiting, imp_iff_not_or]

/-- In an idle block no host waits (R128). -/
theorem State.freeHost_idle {s : State} (hb : s.busy = false) : s.freeHost = 0 := by
  simp [State.freeHost, State.waiting, hb]

/-- The instruction read from the low bits of a word is the one those bits decode to (R78). -/
theorem decode_of_decodeTableWord {nbits w : Nat} {i : Instr} (h : decodeTableWord nbits w = some i) :
    decode (BitVec.ofNat 64 (w % 2 ^ nbits)) = .cmd i := by
  unfold decodeTableWord at h
  split at h
  next hdec => rw [hdec, Option.some.inj h]
  next => cases h

/-- Settles O17: a host that may submit has its word run, and `withFetchWord` is a submission by host 0. -/
theorem stepRunsTheDecodedCommand : Obligations.StepRunsTheDecodedCommand := by
  refine ⟨fun s h w wdata es i hh hfree hin hdec => ?_, fun s nbits w i hb hh hdec => ?_⟩
  · exact step_submit hin ((s.maySubmit_iff h).2 ⟨hh, hfree⟩) hdec
  · have hmay : s.maySubmit 0 = true := (s.maySubmit_iff 0).2 ⟨hh, by simp [hb]⟩
    have hin : (s.withFetchWord nbits w).inputs = .submit 0 (BitVec.ofNat 64 (w % 2 ^ nbits))
        (zeroData (BitVec.ofNat 64 (w % 2 ^ nbits))) :: s.inputs := by
      rw [← State.freeHost_idle hb]
      rfl
    exact step_submit hin hmay (decode_of_decodeTableWord hdec)

/-- Settles O45: the three bytes as numbers, and the address put together from them. -/
theorem addressBytesAreBigEndian : Obligations.AddressBytesAreBigEndian := by
  intro a
  have ha := a.isLt
  have h2 : (a.extractLsb' 16 8).toNat = a.toNat / 65536 := by
    rw [BitVec.extractLsb'_toNat, Nat.shiftRight_eq_div_pow]
    omega
  have h1 : (a.extractLsb' 8 8).toNat = a.toNat / 256 % 256 := by
    rw [BitVec.extractLsb'_toNat, Nat.shiftRight_eq_div_pow]
  have h0 : (a.extractLsb' 0 8).toNat = a.toNat % 256 := by
    rw [BitVec.extractLsb'_toNat, Nat.shiftRight_zero]
  refine ⟨_, _, _, rfl, BitVec.eq_of_toNat_eq ?_, h2, h1, h0⟩
  rw [toNat_append_eq, toNat_append_eq, h2, h1, h0]
  omega

/-- Two stretches of the trace whose cycles are known, one after the other (R103 to R106). -/
theorem traceCycles_append {es fs : List WireEvent} {c d : List Cycle} (he : traceCycles es = some c)
    (hf : traceCycles fs = some d) : traceCycles (es ++ fs) = some (c ++ d) := by
  induction es generalizing c with
  | nil =>
    cases he
    exact hf
  | cons e es ih =>
    unfold traceCycles at he
    split at he
    next ce cs hce hcs =>
      cases he
      simp [traceCycles, hce, ih hcs]
    next => cases he

/-- What a micro-op that returns `Ok` puts on the wire has as many cycles as the micro-op takes (R103 to R106). -/
theorem traceCycles_wireEvents (op : MicroOp) (v : BitVec 32) :
    ∃ cycles, traceCycles (op.wireEvents v) = some cycles ∧ cycles.length = op.sclk := by
  cases op <;> exact ⟨_, rfl, rfl⟩

theorem progWire_cons (v : Nat → BitVec 32) (op : MicroOp) (ops : List MicroOp) :
    progWire v (op :: ops) = op.wireEvents (v 0) ++ progWire (fun n => v (n + 1)) ops := by
  simp [progWire, List.mapIdx_cons]

theorem progSclk_cons (op : MicroOp) (ops : List MicroOp) : progSclk (op :: ops) = op.sclk + progSclk ops := by
  simp [progSclk]

/-- Settles O43, by induction on the list: the first micro-op's cycles, then those of the rest. -/
theorem wireTraceHasTheCyclesOfItsMicroOps : Obligations.WireTraceHasTheCyclesOfItsMicroOps := by
  intro v prog
  induction prog generalizing v with
  | nil => exact ⟨[], rfl, rfl⟩
  | cons op ops ih =>
    obtain ⟨first, hfirst, hlen⟩ := traceCycles_wireEvents op (v 0)
    obtain ⟨rest, hrest, hlens⟩ := ih fun n => v (n + 1)
    refine ⟨first ++ rest, ?_, ?_⟩
    · rw [progWire_cons]
      exact traceCycles_append hfirst hrest
    · rw [List.length_append, hlen, hlens, progSclk_cons]

/-- After every selection in the list the next micro-op sends a byte that `P` holds of. -/
def OpensWith (P : Byte → Prop) (prog : List MicroOp) : Prop :=
  ∀ (line : LineId) (before after : List MicroOp), prog = before ++ .sel line :: after →
    ∃ (b : Byte) (rest : List MicroOp), (after = .tx8 b :: rest ∨ after = .qtx b :: rest) ∧ P b

section
variable {P : Byte → Prop}

/-- A list that selects nothing has no frame to open. -/
theorem OpensWith.of_no_sel {prog : List MicroOp} (h : ∀ i, .sel i ∉ prog) : OpensWith P prog := by
  rintro line before after rfl
  exact absurd (by simp) (h line)

theorem OpensWith.append {x y : List MicroOp} (hx : OpensWith P x) (hy : OpensWith P y) : OpensWith P (x ++ y) := by
  intro line before after h
  rcases List.append_eq_append_iff.1 h with ⟨mid, hbefore, htail⟩ | ⟨mid, hhead, htail⟩
  · exact hy line mid after htail
  · cases mid with
    | nil => exact hy line [] after htail.symm
    | cons op mid =>
      obtain ⟨rfl, rfl⟩ := List.cons.inj htail
      obtain ⟨b, rest, hopen, hb⟩ := hx line before mid hhead
      refine ⟨b, rest ++ y, ?_, hb⟩
      rcases hopen with rfl | rfl
      · exact .inl rfl
      · exact .inr rfl

theorem OpensWith.flatMap {f : LineId → List MicroOp} (h : ∀ i, OpensWith P (f i)) (lines : List LineId) :
    OpensWith P (lines.flatMap f) := by
  induction lines with
  | nil => exact .of_no_sel (by simp)
  | cons i is ih => exact (h i).append ih

/-- A frame of transfers that sends `b` first opens with `b` (R118). -/
theorem OpensWith.of_frame {i : LineId} {m : WireMode} {x : List MicroOp} (hx : ∀ o ∈ x, o.transfersUnder m = true)
    {b : Byte} {rest : List MicroOp} (hfirst : x = .tx8 b :: rest ∨ x = .qtx b :: rest) (hb : P b) :
    OpensWith P (frame i x) := by
  have hsel : ∀ j, .sel j ∉ x ++ [.drain, .unsel i] := fun j hj => by
    have hm : MicroOp.sel j ∈ x := by simpa using hj
    cases m <;> cases hx _ hm
  intro line before after h
  cases before with
  | nil =>
    obtain ⟨-, rfl⟩ := List.cons.inj h
    refine ⟨b, rest ++ [.drain, .unsel i], ?_, hb⟩
    rcases hfirst with rfl | rfl
    · exact .inl rfl
    · exact .inr rfl
  | cons op before =>
    obtain ⟨-, htail⟩ := List.cons.inj h
    exact OpensWith.of_no_sel (P := P) hsel line before after htail

/-- A frame whose first phase is an opcode opens with that opcode (R79, R113). -/
theorem OpensWith.of_opcode {b : Byte} (hb : P b) (i : LineId) (phases : List Phase) (m : WireMode) :
    OpensWith P (frame i (body (.opc b :: phases) m)) := by
  refine .of_frame (body_transfersUnder _ m) (rest := body phases m) ?_ hb
  cases m
  · exact .inl rfl
  · exact .inr rfl

end

/-- A byte that opens a frame: an opcode of the table, or the first byte of the exit pattern (R81). -/
def FrameByte (p : Params) (b : Byte) : Prop := b ∈ opcodeTable p ∨ p.exitSequence.head? = some b

/-- Every frame of a command's expansion opens with a byte of the table or of the exit pattern (R81). -/
theorem opensWith_expansionOf {p : Params} (hp : p.wf = true) (i : Instr) (wdata : List Byte) :
    OpensWith (FrameByte p) (expansionOf i p wdata) := by
  have opcode {b : Byte} (j : LineId) (phases : List Phase) (m : WireMode)
      (hb : b ∈ opcodeTable p := by simp [opcodeTable]) :
      OpensWith (FrameByte p) (frame j (body (.opc b :: phases) m)) := .of_opcode (.inl hb) j phases m
  have noSel {x : List MicroOp} (h : ∀ j, .sel j ∉ x) : OpensWith (FrameByte p) x := .of_no_sel h
  cases i with
  | rsten cs a l => exact opcode cs _ _
  | rst cs a l => exact (opcode cs _ _).append (noSel (by simp))
  | rdid cs a l => exact opcode cs _ _
  | tglbl cs a l => exact opcode cs _ _
  | frd cs a l => exact opcode cs _ _
  | fwr cs a l => exact opcode cs _ _
  | qfrd cs a l => exact opcode cs _ _
  | qfwr cs a l => exact opcode cs _ _
  | qen cs a l => exact (OpensWith.flatMap (fun j => opcode j _ _) _).append (noSel (by simp))
  | qex cs a l =>
    obtain ⟨-, -, hexit, -⟩ := (Params.wf_iff p).1 hp
    obtain ⟨b, bs, hbs⟩ := List.exists_cons_of_ne_nil hexit
    have hqtx : ∀ o ∈ p.exitSequence.map MicroOp.qtx, o.transfersUnder .qspi = true := by
      simp [MicroOp.transfersUnder]
    have hfirst : p.exitSequence.map MicroOp.qtx = .qtx b :: bs.map .qtx := by rw [hbs]; rfl
    have hframe (j : LineId) : OpensWith (FrameByte p) (disableFrame p j) :=
      .of_frame hqtx (.inr hfirst) (.inr (by rw [hbs]; rfl))
    exact (OpensWith.flatMap hframe _).append (noSel (by simp))

/-- Settles O44: an accepted command's program is its expansion, each frame of which opens as R81 says. -/
theorem framesOpenWithTableOpcodes : Obligations.FramesOpenWithTableOpcodes := by
  intro i s t hp hb h ht
  rw [exec_eq_submit] at h
  rcases submit_cases h with ⟨hbusy, -⟩ | ⟨-, st, -, rfl⟩ | ⟨-, -, rfl⟩
  · simp [hb] at hbusy
  · simp [hb] at ht
  · exact opensWith_expansionOf hp i s.port.wdata

end Sys2Proof.Machine

/-! SUPPORT. What a command ignores changes nothing but the latches that copy it, and no step reads those latches
(30_encoding R72; 40_transport_and_phases R120). -/

namespace Sys2Proof.Machine

/-- The state with other write data on the host interface (R70). -/
def State.withData (s : State) (d : List Byte) : State := { s with port := { s.port with wdata := d } }

/-- The checks look at a field or at the write data only for a command that reads it (R72, R122). -/
theorem idleCheck_unread {c : CmdInfo} {cs cs' : LineId} {l l' : Len} (hcs : c.readsCs = true → cs = cs')
    (hl : c.isData = true → l = l') (hw : c.isWrite = false) (s : State) (d : List Byte) :
    idleCheck c cs' l' (s.withData d) = idleCheck c cs l s := by
  have hline : badLine c cs' (s.withData d) = badLine c cs s := by
    cases hr : c.readsCs with
    | false => simp [badLine, hr]
    | true => rw [hcs hr]; rfl
  have hlength : badLength c l' (s.withData d) = badLength c l s := by
    cases hr : c.isData with
    | false => simp [badLength, hr]
    | true => rw [hl hr]; rfl
  have hdata (k : Len) (t : State) : badData c k t = false := by simp [badData, hw]
  simp only [idleCheck, hline, hlength, hdata]
  rfl

/-- A submission that ignores the write data and the fields in which it differs is answered alike, and the two next
states differ only in the port and in the latches that copy those fields (R72, R120). -/
theorem submit_unread {c : CmdInfo} {cs cs' : LineId} (hcs : c.readsCs = true → cs = cs') {l l' : Len}
    (hl : c.isData = true → l = l') (hw : c.isWrite = false) (a a' : Addr) (prog : List MicroOp) (s : State)
    (d : List Byte) :
    ∃ t u, submit c cs a l prog s = .next t ∧ submit c cs' a' l' prog (s.withData d) = .next u ∧
      u = { t with curCs := u.curCs, curAddr := u.curAddr, curLen := u.curLen, port := u.port } ∧
      (cs = cs' → u.curCs = t.curCs) ∧ (a = a' → u.curAddr = t.curAddr) ∧ (l = l' → u.curLen = t.curLen) := by
  have hcheck := idleCheck_unread hcs hl hw s d
  cases hb : s.busy with
  | true =>
    have hb' : (s.withData d).busy = true := hb
    exact ⟨_, _, submit_busy hb, submit_busy hb', rfl, fun _ => rfl, fun _ => rfl, fun _ => rfl⟩
  | false =>
    have hb' : (s.withData d).busy = false := hb
    cases hc : idleCheck c cs l s with
    | some st =>
      exact ⟨_, _, submit_refused hb hc, submit_refused hb' (hcheck.trans hc), rfl, fun _ => rfl, fun _ => rfl,
        fun _ => rfl⟩
    | none =>
      refine ⟨_, _, submit_accepted hb hc, submit_accepted hb' (hcheck.trans hc), ?_, Eq.symm, Eq.symm, Eq.symm⟩
      simp only [State.accept, hw]
      rfl

/-- Two commands that differ only in what they ignore, and write data that they ignore (R72). -/
structure DifferUnread (i j : Instr) : Prop where
  info : infoOf j = infoOf i
  expansion : ∀ p d e, expansionOf j p d = expansionOf i p e
  line : (infoOf i).readsCs = true → i.line = j.line
  len : (infoOf i).isData = true → i.len = j.len
  isWrite : (infoOf i).isWrite = false

/-- Such commands are answered alike, and the next states differ only in the port and in the latches that copy the
fields in which the commands differ (R72, R120). -/
theorem DifferUnread.exec_alike {i j : Instr} (h : DifferUnread i j) (s : State) (d : List Byte) :
    ∃ t u, exec i s = .next t ∧ exec j (s.withData d) = .next u ∧
      u = { t with curCs := u.curCs, curAddr := u.curAddr, curLen := u.curLen, port := u.port } ∧
      (i.line = j.line → u.curCs = t.curCs) ∧ (i.addr = j.addr → u.curAddr = t.curAddr) ∧
      (i.len = j.len → u.curLen = t.curLen) := by
  rw [exec_eq_submit, exec_eq_submit, h.info, h.expansion _ _ s.port.wdata]
  exact submit_unread h.line h.len h.isWrite _ _ _ s d

/-- The state with other values in the latches of `CS`, `ADDR` and `LEN` (R28). -/
def State.relatch (s : State) (c : LineId) (a : Addr) (l : Len) : State :=
  { s with curCs := c, curAddr := a, curLen := l }

/-- The outcome with other values in those latches of the next state. -/
def relatchNext (c : LineId) (a : Addr) (l : Len) (o : Host.Outcome State Fault Refusal) :
    Host.Outcome State Fault Refusal :=
  match o with
  | .next s => .next (s.relatch c a l)
  | .fault r => .fault r
  | .refused r => .refused r

/-- `u` is `t` but for the latches of `CS`, `ADDR` and `LEN`. -/
def SameButLatches (t u : State) : Prop := u = { t with curCs := u.curCs, curAddr := u.curAddr, curLen := u.curLen }

/-- Where `x` answers a next state, `y` answers one that is the same but for those latches. -/
def SameNext (x y : Host.Outcome State Fault Refusal) : Prop :=
  ∀ t, x = .next t → ∃ u, y = .next u ∧ SameButLatches t u

theorem SameNext.relatchNext (c : LineId) (a : Addr) (l : Len) (o : Host.Outcome State Fault Refusal) :
    SameNext o (relatchNext c a l o) := by
  rintro t rfl
  exact ⟨t.relatch c a l, rfl, rfl⟩

section
variable (c : LineId) (a : Addr) (l : Len) (s : State)

@[simp] theorem State.relatch_params : (s.relatch c a l).params = s.params := rfl
@[simp] theorem State.relatch_busy : (s.relatch c a l).busy = s.busy := rfl
@[simp] theorem State.relatch_selActive : (s.relatch c a l).selActive = s.selActive := rfl
@[simp] theorem State.relatch_dueOp : (s.relatch c a l).dueOp = s.dueOp := rfl
@[simp] theorem State.relatch_inputs : (s.relatch c a l).inputs = s.inputs := rfl
@[simp] theorem State.relatch_drawCount : (s.relatch c a l).drawCount = s.drawCount := rfl

/-- No precondition reads the latches (R101). -/
@[simp] theorem pre_relatch (op : MicroOp) : op.pre (s.relatch c a l) = op.pre s := by cases op <;> rfl

/-- A transfer does not read the latches (R101). -/
theorem runTransfer_relatch (p : Primitive) (keep : BitVec 32 → List Byte) (d : Draw) :
    runTransfer p keep d (s.relatch c a l) = (runTransfer p keep d s).relatch c a l := by
  unfold runTransfer
  rw [State.relatch_params]
  cases admitTransfer s.params.backend d.answer <;> rfl

theorem runSel_relatch (i : LineId) : runSel i (s.relatch c a l) = (runSel i s).relatch c a l := by
  unfold runSel framerSel
  rw [State.relatch_selActive]
  cases s.selActive <;> rfl

theorem runDrain_relatch (d : Draw) : runDrain d (s.relatch c a l) = (runDrain d s).relatch c a l := by
  unfold runDrain
  rw [State.relatch_params]
  cases admitDrain s.params.backend d.answer <;> rfl

/-- No micro-op reads the latches (R101). -/
@[simp] theorem runOp_relatch (op : MicroOp) (d : Draw) :
    runOp op d (s.relatch c a l) = (runOp op d s).relatch c a l := by
  cases op with
  | sel i => exact runSel_relatch c a l s i
  | drain => exact runDrain_relatch c a l s d
  | tx8 b => exact runTransfer_relatch ..
  | rx8 => exact runTransfer_relatch ..
  | rx32 => exact runTransfer_relatch ..
  | qtx b => exact runTransfer_relatch ..
  | qrx => exact runTransfer_relatch ..
  | qskip => exact runTransfer_relatch ..
  | _ => rfl

/-- The sequencer's step does not read the latches (R123, R125). -/
theorem sequencerTurn_relatch (d : Draw) :
    sequencerTurn d (s.relatch c a l) = relatchNext c a l (sequencerTurn d s) := by
  unfold sequencerTurn
  rw [State.relatch_busy, State.relatch_dueOp]
  cases s.busy with
  | false => rfl
  | true =>
    cases s.dueOp with
    | some op =>
      simp only [if_true, pre_relatch, runOp_relatch]
      cases op.pre s <;> rfl
    | none =>
      change (if s.upc = s.prog.length then .next (s.complete.relatch c a l) else .fault .programOverrun) =
        relatchNext c a l (if s.upc = s.prog.length then .next s.complete else .fault .programOverrun)
      split <;> rfl

/-- The timer's report does not read the latches (R110). -/
theorem timerTurn_relatch (us : Nat) : timerTurn us (s.relatch c a l) = relatchNext c a l (timerTurn us s) := by
  have hsettle : runSettle us (s.relatch c a l) = (runSettle us s).relatch c a l := by
    unfold runSettle
    rw [State.relatch_params]
    split <;> rfl
  unfold timerTurn
  rw [State.relatch_busy, State.relatch_dueOp, pre_relatch, hsettle]
  split
  · split
    · split <;> rfl
    · rfl
  · rfl

/-- The sequencer by itself does not read the latches (R123). -/
theorem freeTurn_relatch : freeTurn (s.relatch c a l) = relatchNext c a l (freeTurn s) := by
  have hcount : (s.relatch c a l).countDraw = s.countDraw.relatch c a l := rfl
  unfold freeTurn
  rw [State.relatch_busy, State.relatch_dueOp, State.relatch_drawCount, hcount, timerTurn_relatch,
    sequencerTurn_relatch]
  split
  · split <;> rfl
  · rfl

/-- A submission does not read the latches; an acceptance overwrites them (R120 to R122). -/
theorem exec_relatch (i : Instr) : SameNext (exec i s) (exec i (s.relatch c a l)) := by
  intro t h
  rw [exec_eq_submit] at h ⊢
  rcases submit_cases h with ⟨hb, rfl⟩ | ⟨hb, st, hc, rfl⟩ | ⟨hb, hc, rfl⟩
  · exact ⟨_, submit_busy hb, rfl⟩
  · exact ⟨_, submit_refused hb hc, rfl⟩
  · exact ⟨_, submit_accepted hb hc, rfl⟩

theorem submitWord_relatch (w : CmdWord) : SameNext (submitWord w s) (submitWord w (s.relatch c a l)) := by
  unfold submitWord
  cases decode w with
  | cmd i => exact exec_relatch c a l s i
  | reserved code =>
    rintro t ⟨⟩
    refine ⟨_, rfl, ?_⟩
    unfold submitReserved
    rw [State.relatch_busy]
    cases s.busy <;> rfl

/-- What an event does does not depend on the latches (R31, R110, R120, R123). -/
theorem takeEvent_relatch (e : Event) : SameNext (takeEvent e s) (takeEvent e (s.relatch c a l)) := by
  cases e with
  | submit h w wdata =>
    have hmay : (s.relatch c a l).maySubmit h = s.maySubmit h := rfl
    simp only [takeEvent, hmay]
    cases s.maySubmit h with
    | true => exact submitWord_relatch c a l (s.present h wdata) w
    | false => exact .relatchNext c a l (.next s)
  | readStatus h =>
    have hread : (s.relatch c a l).readStatus h = (s.readStatus h).relatch c a l := by
      unfold State.readStatus
      rw [State.relatch_params]
      split <;> rfl
    simp only [takeEvent, hread]
    exact .relatchNext c a l (.next (s.readStatus h))
  | transport d =>
    simp only [takeEvent, sequencerTurn_relatch]
    exact .relatchNext c a l _
  | timer us =>
    simp only [takeEvent, timerTurn_relatch]
    exact .relatchNext c a l _

/-- From two states that differ only in the latches every step does the same (R72). -/
theorem step_relatch : SameNext (step s) (step (s.relatch c a l)) := by
  unfold step turn
  rw [State.relatch_inputs]
  cases s.inputs with
  | nil =>
    simp only [freeTurn_relatch]
    exact .relatchNext c a l _
  | cons e es => exact takeEvent_relatch c a l (s.withInputs es) e

end

/-- Settles O28: the commands differ in nothing they read, and no step reads the latches. -/
theorem ignoredFieldsHaveNoEffect : Obligations.IgnoredFieldsHaveNoEffect := by
  refine ⟨fun mk cs a b k l d s hmk => ?_, fun mk cs a l d s hmk => ?_, fun mk c e a b k l d s hmk => ?_,
    fun s t c a l h => step_relatch c a l s t h⟩
  · have hdiff : DifferUnread (mk cs a k) (mk cs b l) := by
      rcases hmk with rfl | rfl | rfl | rfl <;> exact ⟨rfl, fun _ _ _ => rfl, fun _ => rfl, nofun, rfl⟩
    have hline : (mk cs a k).line = (mk cs b l).line := by rcases hmk with rfl | rfl | rfl | rfl <;> rfl
    obtain ⟨t, u, ht, hu, hsame, hcs, -, -⟩ := hdiff.exec_alike s d
    rw [hcs hline] at hsame
    exact ⟨t, u, ht, hu, hsame⟩
  · have hdiff : DifferUnread (mk cs a l) (mk cs a l) := by
      rcases hmk with rfl | rfl <;> exact ⟨rfl, fun _ _ _ => rfl, fun _ => rfl, fun _ => rfl, rfl⟩
    obtain ⟨t, u, ht, hu, hsame, hcs, haddr, hlen⟩ := hdiff.exec_alike s d
    rw [hcs rfl, haddr rfl, hlen rfl] at hsame
    exact ⟨t, u, ht, hu, hsame⟩
  · have hdiff : DifferUnread (mk c a k) (mk e b l) := by
      rcases hmk with rfl | rfl <;> exact ⟨rfl, fun _ _ _ => rfl, nofun, nofun, rfl⟩
    obtain ⟨t, u, ht, hu, hsame, -, -, -⟩ := hdiff.exec_alike s d
    exact ⟨t, u, ht, hu, hsame⟩

end Sys2Proof.Machine

/-! SUPPORT. With SoftwareBitBang nothing a step does shows a timeout (40_transport_and_phases R102, 60_exceptions
R233). -/

namespace Sys2Proof.Machine

/-- A response is shown beside those before it. -/
theorem State.NoTimeoutShown.extend {s t : State} (hs : s.NoTimeoutShown) {d : Delivery}
    (hr : t.responses = s.responses ++ [d]) (hd : d.response.status ≠ .transportTimeout)
    (hl : t.lastStatus ≠ .transportTimeout) : t.NoTimeoutShown := by
  refine ⟨hl, fun r hmem => ?_⟩
  rw [hr, List.mem_append, List.mem_singleton] at hmem
  rcases hmem with hmem | rfl
  · exact hs.2 r hmem
  · exact hd

/-- A completed command responds `Ok` (R125). -/
@[simp] theorem completionResponse_status (cmd : CmdCode) (rbuf : List Byte) :
    (completionResponse cmd rbuf).status = .ok := by
  unfold completionResponse
  split <;> rfl

/-- Everything the block can do in a step on SoftwareBitBang shows no timeout (R102). -/
theorem Did.noTimeoutShown {b t : State} (h : Did b t) (hb : b.params.backend = .softwareBitBang)
    (hn : b.NoTimeoutShown) : t.NoTimeoutShown := by
  cases h with
  | nothing => exact hn
  | rejectedBusy st _ answer =>
    have hst : st ≠ .transportTimeout := by rcases answer with rfl | rfl <;> decide
    exact hn.extend rfl hst hn.1
  | rejectedIdle st _ answer =>
    have hst : st ≠ .transportTimeout := by rcases answer with rfl | rfl <;> decide
    exact hn.extend rfl hst hst
  | accepted i _ _ _ => exact hn
  | okOp op v _ _ _ =>
    obtain ⟨-, -, -, -, -, -, -, -, -, -, hstatus, hresponses, -⟩ := okOp_same b op v
    unfold State.NoTimeoutShown
    rw [hstatus, hresponses]
    exact hn
  | failed op e _ _ _ cause =>
    have he : e ≠ .transportTimeout := by
      rcases cause with ⟨-, hne⟩ | rfl
      · exact absurd hb hne
      · decide
    obtain ⟨w, hw⟩ := failedOp_eq b op
    rw [hw]
    exact hn.extend rfl he he
  | completed _ _ => exact hn.extend rfl (by simp) (by simp)

/-- A step on SoftwareBitBang leaves the backend and shows no timeout (R102, R233). -/
theorem step_noTimeoutShown {s t : State} (hs : s.params.backend = .softwareBitBang ∧ s.NoTimeoutShown)
    (h : step s = .next t) : t.params.backend = .softwareBitBang ∧ t.NoTimeoutShown := by
  refine ⟨(congrArg Params.backend (step_writesOnlyListed h).params).trans hs.1, ?_⟩
  obtain ⟨b, hb, hd⟩ := step_did h
  rw [SameBlock] at hb
  rw [hb] at hd
  exact hd.noTimeoutShown hs.1 hs.2

/-- No run writes the parameters (R7). -/
theorem runSteps_params {n : Nat} {s t : State} (h : runSteps n s = .next t) : t.params = s.params :=
  runSteps_keeps (P := fun u => u.params = s.params) (fun _ _ hu hstep => (step_writesOnlyListed hstep).params.trans hu)
    rfl h

/-- Settles O36: a step keeps both the backend and what is shown, and a block right after reset shows no response. -/
theorem softwareBitBangNeverTimesOut : Obligations.SoftwareBitBangNeverTimesOut := by
  refine ⟨fun s t hb hn h => step_noTimeoutShown ⟨hb, hn⟩ h, fun s hs hb => ?_⟩
  obtain ⟨p, es, n, -, run⟩ := hs
  have hp : p.backend = .softwareBitBang := (congrArg Params.backend (runSteps_params run)).symm.trans hb
  have hreset : ((State.resetWith p).withInputs es).NoTimeoutShown := ⟨nofun, nofun⟩
  exact (runSteps_keeps (fun _ _ => step_noTimeoutShown) ⟨hp, hreset⟩ run).2

end Sys2Proof.Machine

/-! SUPPORT. With the invariants no event stops the machine (40_transport_and_phases R101, R111). -/

namespace Sys2Proof.Machine

section
variable {s : State} (hs : Inv s)
include hs

/-- With the invariants the sequencer's step runs the due micro-op, or completes at the end of the expansion, or waits
(R101, R125). -/
theorem Inv.sequencerTurn_next (d : Draw) : ∃ t, sequencerTurn d s = .next t := by
  unfold sequencerTurn
  split
  next hb =>
    split
    next op hdue => exact ⟨_, if_pos (hs.pre_due hb hdue)⟩
    next hdue => exact ⟨_, if_pos (Nat.le_antisymm hs.upc (List.getElem?_eq_none_iff.1 hdue))⟩
  next => exact ⟨s, rfl⟩

/-- With the invariants the timer's report finds the precondition of a due `SETTLE` true (R101, R110). -/
theorem Inv.timerTurn_next (us : Nat) : ∃ t, timerTurn us s = .next t := by
  unfold timerTurn
  split
  next hb =>
    split
    next hdue => exact ⟨_, if_pos (hs.pre_due hb hdue)⟩
    next => exact ⟨s, rfl⟩
  next => exact ⟨s, rfl⟩

/-- With the invariants the sequencer goes on by itself, whatever the free draws are (R102). -/
theorem Inv.freeTurn_next : ∃ t, freeTurn s = .next t := by
  have hcount : Inv s.countDraw := hs.of_sameBlock rfl
  unfold freeTurn
  split
  next =>
    split
    · exact hcount.timerTurn_next _
    · exact hcount.sequencerTurn_next _
  next => exact ⟨s, rfl⟩

end

/-- A submitted word is answered, in every state (R78, R120 to R122). -/
theorem submitWord_next (w : CmdWord) (s : State) : ∃ t, submitWord w s = .next t := by
  unfold submitWord
  split
  · rw [exec_eq_submit]
    exact submit_next ..
  · exact ⟨_, rfl⟩

/-- With the invariants every event is taken. -/
theorem Inv.takeEvent_next {s : State} (hs : Inv s) (e : Event) : ∃ t, takeEvent e s = .next t := by
  cases e with
  | submit h w wdata =>
    simp only [takeEvent]
    split
    · exact submitWord_next w _
    · exact ⟨s, rfl⟩
  | readStatus h => exact ⟨_, rfl⟩
  | transport d => exact hs.sequencerTurn_next d
  | timer us => exact hs.timerTurn_next us

/-- Settles O9: the next event is taken, or the sequencer goes on by itself. -/
theorem invariantStatesNeverStop : Obligations.InvariantStatesNeverStop := by
  intro s hs
  unfold step turn
  split
  · exact hs.freeTurn_next
  next e es _ => exact (Inv.of_sameBlock (b := s.withInputs es) rfl hs).takeEvent_next e

end Sys2Proof.Machine

/-! SUPPORT. A command accepted by an idle block, and its expansion (40_transport_and_phases R112 to R120, R129). -/

namespace Sys2Proof.Machine

/-- An idle block accepts a command whose checks all pass, with the expansion written out (R120). -/
theorem exec_accepted {i : Instr} {s : State} (hb : s.busy = false) (hc : idleCheck (infoOf i) i.line i.len s = none) :
    exec i s = .next (s.accept (infoOf i) i.line i.addr i.len
      (commandProgram s.params i.code i.line i.addr i.len (if (infoOf i).isWrite then s.port.wdata else []))) := by
  rw [exec_eq_submit, submit_accepted hb hc, expansionOf_eq_commandProgram]

section
variable {s : State} {code : CmdCode} {cs : LineId} {l : Len}

/-- The checks pass for a device control command under SPI, on a line of the block (R122). -/
theorem idleCheck_control_eq_none (hm : s.wireMode = .spi) (hl : cs.toNat < s.params.nCs) :
    idleCheck (controlInfo code) cs l s = none := by
  rw [idleCheck_eq_none, badLine_eq_false, badLength_eq_false, badData_eq_false]
  exact ⟨fun _ => hl, nofun, nofun, hm.symm⟩

/-- The checks pass for a mode transition in its mode, whatever its fields (R122). -/
theorem idleCheck_transition_eq_none {m : WireMode} (hm : s.wireMode = m) :
    idleCheck (transitionInfo code m) cs l s = none := by
  rw [idleCheck_eq_none, badLine_eq_false, badLength_eq_false, badData_eq_false]
  exact ⟨nofun, nofun, nofun, hm.symm⟩

end

/-- Settles O18: the checks of a device control command pass. -/
theorem resetEnableIsAccepted : Obligations.ResetEnableIsAccepted :=
  fun _ _ _ _ hb hm hl => exec_accepted hb (idleCheck_control_eq_none hm hl)

/-- Settles O19: the checks of a device control command pass. -/
theorem resetIsAccepted : Obligations.ResetIsAccepted :=
  fun _ _ _ _ hb hm hl => exec_accepted hb (idleCheck_control_eq_none hm hl)

/-- Settles O20: the checks of a device control command pass. -/
theorem readIdIsAccepted : Obligations.ReadIdIsAccepted :=
  fun _ _ _ _ hb hm hl => exec_accepted hb (idleCheck_control_eq_none hm hl)

/-- Settles O21: the checks of a device control command pass. -/
theorem toggleBurstLengthIsAccepted : Obligations.ToggleBurstLengthIsAccepted :=
  fun _ _ _ _ hb hm hl => exec_accepted hb (idleCheck_control_eq_none hm hl)

/-- Settles O22: the checks of a data command that writes nothing pass. -/
theorem fastReadSpiIsAccepted : Obligations.FastReadSpiIsAccepted :=
  fun _ _ _ _ hb hm hl hn => exec_accepted hb (idleCheck_data_eq_none hm hl hn nofun)

/-- Settles O23: the checks of a data command that writes pass. -/
theorem fastWriteSpiIsAccepted : Obligations.FastWriteSpiIsAccepted :=
  fun _ _ _ _ hb hm hl hn hd => exec_accepted hb (idleCheck_data_eq_none hm hl hn fun _ => hd)

/-- Settles O24: the checks of a mode transition pass. -/
theorem enterQspiIsAccepted : Obligations.EnterQspiIsAccepted :=
  fun _ _ _ _ hb hm => exec_accepted hb (idleCheck_transition_eq_none hm)

/-- Settles O25: the checks of a data command that writes nothing pass. -/
theorem fastReadQspiIsAccepted : Obligations.FastReadQspiIsAccepted :=
  fun _ _ _ _ hb hm hl hn => exec_accepted hb (idleCheck_data_eq_none hm hl hn nofun)

/-- Settles O26: the checks of a data command that writes pass. -/
theorem fastWriteQspiIsAccepted : Obligations.FastWriteQspiIsAccepted :=
  fun _ _ _ _ hb hm hl hn hd => exec_accepted hb (idleCheck_data_eq_none hm hl hn fun _ => hd)

/-- Settles O27: the checks of a mode transition pass. -/
theorem exitQspiIsAccepted : Obligations.ExitQspiIsAccepted :=
  fun _ _ _ _ hb hm => exec_accepted hb (idleCheck_transition_eq_none hm)

/-- A frame of `n` micro-ops on each of some lines. -/
theorem length_flatMap_const {f : LineId → List MicroOp} {n : Nat} (hf : ∀ i, (f i).length = n) (lines : List LineId) :
    (lines.flatMap f).length = n * lines.length := by
  simp [List.length_flatMap, hf, Nat.mul_comm]

/-- The expansion of a command has the length the table gives, where a write's data has the stated length (R129). -/
theorem length_expansionOf (i : Instr) (p : Params) {wdata : List Byte}
    (hd : (infoOf i).isWrite = true → wdata.length = i.len.toNat) :
    (expansionOf i p wdata).length = programLength p i.code i.len := by
  have hlines : (allLines p).length = p.nCs := by simp [allLines]
  cases i with
  | rsten cs a l => rfl
  | rst cs a l => rfl
  | rdid cs a l => simp +arith [expansionOf_rdid, programLength, Instr.code]
  | tglbl cs a l => rfl
  | frd cs a l => simp +arith [expansionOf_frd, programLength, Instr.code, Instr.len]
  | fwr cs a l => simp +arith [expansionOf_fwr, programLength, Instr.code, hd rfl]
  | qen cs a l =>
    rw [expansionOf_qen, List.length_append, length_flatMap_const (n := 4) (fun _ => rfl), hlines]
    rfl
  | qfrd cs a l => simp +arith [expansionOf_qfrd, programLength, Instr.code, Instr.len]
  | qfwr cs a l => simp +arith [expansionOf_qfwr, programLength, Instr.code, hd rfl]
  | qex cs a l =>
    rw [expansionOf_qex, List.length_append, length_flatMap_const (n := 3 + p.exitSequence.length) (by simp +arith),
      hlines]
    rfl

/-- Settles O41: an accepted command's program is its expansion, and check 4 has compared a write's data with its
length. -/
theorem expansionLengthsAreTheTables : Obligations.ExpansionLengthsAreTheTables := by
  intro i s t hb h ht
  rw [exec_eq_submit] at h
  rcases submit_cases h with ⟨hbusy, -⟩ | ⟨-, st, -, rfl⟩ | ⟨-, hc, rfl⟩
  · simp [hb] at hbusy
  · simp [hb] at ht
  · obtain ⟨-, -, hdata, -⟩ := (idleCheck_eq_none ..).1 hc
    exact length_expansionOf i s.params ((badData_eq_false ..).1 hdata)

end Sys2Proof.Machine

/-! SUPPORT. Submissions and their answers: while busy, while idle, and by a host that may not submit
(40_transport_and_phases R120 to R122, R127, R128). -/

namespace Sys2Proof.Machine

/-- The word of a submission by a host that may submit goes to the decoder (R78, R120). -/
theorem step_submitWord {s : State} {h : Nat} {w : CmdWord} {wdata : List Byte} {es : List Event}
    (hin : s.inputs = .submit h w wdata :: es) (hmay : s.maySubmit h = true) :
    step s = submitWord w ((s.withInputs es).present h wdata) := by
  have hmay' : (s.withInputs es).maySubmit h = true := hmay
  simp only [step, turn, hin, takeEvent, hmay', if_true]

/-- QEN and QEX are the mode transitions (R121). -/
theorem infoOf_isTransition (i : Instr) : (infoOf i).isTransition = decide (i.code.toNat = 7 ∨ i.code.toNat = 10) := by
  cases i <;> rfl

/-- The lowest four bits of a command's word are its code (R71). -/
theorem encode_mod (i : Instr) : (encode i).toNat % 16 = i.code.toNat := (Laws.FieldsInWord.of_packWord i).1

/-- While busy every word is rejected, QEN and QEX with `InvalidModeTransition`, every other with `BusBusy` (R121). -/
theorem submitWord_busy {w : CmdWord} {s : State} (hb : s.busy = true) :
    submitWord w s = .next (s.rejectBusy
      (if w.toNat % 16 = 7 ∨ w.toNat % 16 = 10 then .invalidModeTransition else .busBusy)) := by
  unfold submitWord
  rcases decode_cases w with ⟨i, hdec, rfl⟩ | ⟨hdec, hcode⟩
  · simp [hdec, exec_eq_submit, submit_busy hb, busyStatus, infoOf_isTransition, encode_mod]
  · have hother : ¬(w.toNat % 16 = 7 ∨ w.toNat % 16 = 10) := by omega
    simp only [hdec, if_neg hother, submitReserved, hb, if_true]

/-- Settles O13: a host that may submit has its word rejected. -/
theorem submissionWhileBusyIsRejected : Obligations.SubmissionWhileBusyIsRejected := by
  intro s h w wdata es hb hh hother hin
  exact (step_submitWord hin ((s.maySubmit_iff h).2 ⟨hh, fun hw => hother hw.2⟩)).trans (submitWord_busy hb)

/-- The fields of a command's word as numbers (R71). -/
theorem encode_fields (i : Instr) :
    (encode i).toNat / 16 % 16 = i.line.toNat ∧ (encode i).toNat / 2 ^ 32 = i.len.toNat := by
  obtain ⟨-, -, hcs, -, hlen⟩ := Laws.FieldsInWord.of_packWord i
  rw [← fieldCs_toNat, ← fieldLen_toNat, hcs, hlen]
  exact ⟨rfl, rfl⟩

/-- Every command but the mode transitions reads `CS` (R72). -/
theorem infoOf_readsCs (i : Instr) : (infoOf i).readsCs = true ↔ i.code.toNat ≠ 7 ∧ i.code.toNat ≠ 10 := by
  cases i <;> simp [infoOf, Instr.code, controlInfo, dataInfo, transitionInfo]

/-- FRD, FWR, QFRD and QFWR are the data commands (R72). -/
theorem infoOf_isData (i : Instr) :
    (infoOf i).isData = true ↔ i.code.toNat = 5 ∨ i.code.toNat = 6 ∨ i.code.toNat = 8 ∨ i.code.toNat = 9 := by
  cases i <;> simp [infoOf, Instr.code, controlInfo, dataInfo, transitionInfo]

/-- FWR and QFWR are the writes, by the number of the code (R72). -/
theorem infoOf_isWrite_toNat (i : Instr) : (infoOf i).isWrite = true ↔ i.code.toNat = 6 ∨ i.code.toNat = 9 := by
  cases i <;> simp [infoOf, Instr.code, controlInfo, dataInfo, transitionInfo]

/-- QFRD, QFWR and QEX require QSPI, every other command SPI (R80). -/
theorem infoOf_mode (i : Instr) :
    (infoOf i).mode = if i.code.toNat = 8 ∨ i.code.toNat = 9 ∨ i.code.toNat = 10 then .qspi else .spi := by
  cases i <;> rfl

/-- While idle the checks of a command are those of its word's fields as numbers (R122, R240). -/
theorem idleCheck_eq_answerTo {s : State} (hb : s.busy = false) (i : Instr) (h : Nat) (wdata : List Byte)
    (es : List Event) :
    idleCheck (infoOf i) i.line i.len ((s.withInputs es).present h wdata) = answerTo s (encode i) wdata := by
  obtain ⟨hcs, hlen⟩ := encode_fields i
  have hrange := i.code_range
  have hcode : ¬(i.code.toNat = 0 ∨ 11 ≤ i.code.toNat) := by omega
  have hline (t : State) : badLine (infoOf i) i.line t = true ↔
      i.code.toNat ≠ 7 ∧ i.code.toNat ≠ 10 ∧ t.params.nCs ≤ i.line.toNat := by
    simp [badLine, infoOf_readsCs, and_assoc]
  have hlength (t : State) : badLength (infoOf i) i.len t = true ↔
      (i.code.toNat = 5 ∨ i.code.toNat = 6 ∨ i.code.toNat = 8 ∨ i.code.toNat = 9) ∧
        t.params.maxLen.toNat < i.len.toNat := by
    simp [badLength, infoOf_isData]
  have hdata (t : State) : badData (infoOf i) i.len t = true ↔
      (i.code.toNat = 6 ∨ i.code.toNat = 9) ∧ t.port.wdata.length ≠ i.len.toNat := by
    simp [badData, infoOf_isWrite_toNat]
  simp only [idleCheck, answerTo, hb, encode_mod, hcs, hlen, if_neg hcode, hline, hlength, hdata, infoOf_mode]
  rfl

/-- A reserved code fails check 1 while idle (R77, R122). -/
theorem answerTo_reserved {s : State} (hb : s.busy = false) {w : CmdWord}
    (hw : w.toNat % 16 = 0 ∨ 11 ≤ w.toNat % 16) (wdata : List Byte) : answerTo s w wdata = some .badArgument := by
  simp [answerTo, hb, hw]

section
variable {s : State} {h : Nat} {w : CmdWord} {wdata : List Byte} {es : List Event} (hb : s.busy = false)
include hb

/-- While idle a word that fails a check is rejected with that check's status (R122). -/
theorem submitWord_refused {st : Status} (ha : answerTo s w wdata = some st) :
    submitWord w ((s.withInputs es).present h wdata) = .next (((s.withInputs es).present h wdata).rejectIdle st) := by
  unfold submitWord
  rcases decode_cases w with ⟨i, hdec, rfl⟩ | ⟨hdec, hcode⟩
  · rw [← idleCheck_eq_answerTo hb i h wdata es] at ha
    simp only [hdec, exec_eq_submit]
    exact submit_refused hb ha
  · rw [answerTo_reserved hb hcode] at ha
    cases ha
    simp [hdec, submitReserved, hb]

/-- While idle a word that passes every check is that of a command, which is accepted (R120). -/
theorem submitWord_accepted (ha : answerTo s w wdata = none) :
    ∃ i, w = encode i ∧ submitWord w ((s.withInputs es).present h wdata) =
      .next (((s.withInputs es).present h wdata).accept (infoOf i) i.line i.addr i.len
        (commandProgram s.params i.code i.line i.addr i.len (if (infoOf i).isWrite then wdata else []))) := by
  rcases decode_cases w with ⟨i, hdec, rfl⟩ | ⟨-, hcode⟩
  · rw [← idleCheck_eq_answerTo hb i h wdata es] at ha
    refine ⟨i, rfl, ?_⟩
    simp only [submitWord, hdec]
    exact exec_accepted hb ha
  · rw [answerTo_reserved hb hcode] at ha
    cases ha

/-- In an idle block every host that exists may submit (R7, R128). -/
theorem maySubmit_idle (hh : h < s.params.nHost) : s.maySubmit h = true :=
  (s.maySubmit_iff h).2 ⟨hh, by simp [hb]⟩

end

/-- Settles O14: a word that fails a check is rejected with its status, and one that passes them all is accepted. -/
theorem submissionWhileIdleIsDecidedByTheChecks : Obligations.SubmissionWhileIdleIsDecidedByTheChecks := by
  intro s h w wdata es hb hh hin
  have hstep := step_submitWord hin (maySubmit_idle hb hh)
  refine ⟨fun st ha => hstep.trans (submitWord_refused hb ha), fun ha => ?_⟩
  obtain ⟨i, rfl, hacc⟩ := submitWord_accepted (h := h) (es := es) hb ha
  obtain ⟨hmod, hcmd, hcs, haddr, hlen⟩ := Laws.FieldsInWord.of_packWord i
  unfold fieldCmd at hcmd
  unfold fieldCs at hcs
  unfold fieldAddr at haddr
  unfold fieldLen at hlen
  rw [hstep, hacc]
  simp only [hmod, hcmd, hcs, haddr, hlen, ← infoOf_isWrite_toNat]
  simp only [State.accept, infoOf_code]
  rfl

/-- Settles O15: a host that waits, or does not exist, may not submit. -/
theorem waitingHostSubmitsNothing : Obligations.WaitingHostSubmitsNothing := by
  intro s h w wdata es hno hin
  have hmay : ¬(s.withInputs es).maySubmit h = true := by
    rw [State.maySubmit_iff]
    rcases hno with hw | hh
    · exact fun hfree => hfree.2 hw
    · exact fun hfree => Nat.not_lt.2 hh hfree.1
  simp only [step, turn, hin, takeEvent, if_neg hmay]
  rfl

/-- Settles O16: the first submission finds the block idle and passes its checks, the second finds it busy. -/
theorem firstOfTwoHostsIsAccepted : Obligations.FirstOfTwoHostsIsAccepted := by
  intro s h k w x d e es hb hh hk hne ha hin
  obtain ⟨i, -, hacc⟩ := submitWord_accepted (h := h) (es := .submit k x e :: es) hb ha
  have hfirst := (step_submitWord hin (maySubmit_idle hb hh)).trans hacc
  have hsecond (u : State) (hp : u.params = s.params) (hbusy : u.busy = true) (hhost : u.curHost = h)
      (hin : u.inputs = .submit k x e :: es) :=
    submissionWhileBusyIsRejected u k x e es hbusy (hp ▸ hk) (hhost ▸ hne) hin
  exact ⟨_, (runSteps_succ hfirst).trans (runSteps_succ (hsecond _ rfl rfl rfl rfl)), rfl, rfl, rfl, rfl, rfl, rfl, rfl⟩

end Sys2Proof.Machine

/-! SUPPORT. What each micro-op that the transport answers `Ok` leaves, `SETTLE` and its timer, a failed precondition,
and the answers that no event lists (40_transport_and_phases R101, R102, R107 to R111). -/

namespace Sys2Proof.Machine

/-- The sequencer's step with a due micro-op, its precondition holding, that the transport answers `Ok` (R101, R123). -/
theorem step_dueWith_ok {s : State} {op : MicroOp} {v : BitVec 32} {es : List Event} (h : s.dueWith op ⟨.ok, v⟩ es)
    (hp : op.pre s = true) (hs : op ≠ .settle) : step s = .next ((s.withInputs es).okOp op v) :=
  (step_dueWith h hp).trans (congrArg _ (runOp_ok ((pre_withInputs op s es).trans hp) rfl hs))

/-- The transport's queue grows on HardwareAssisted alone (R108). -/
theorem queueAfter_eq_ite (b : Backend) (q : List Byte) (p : Primitive) :
    queueAfter b q p = if b = .hardwareAssisted then q ++ p.output else q := by
  cases b <;> rfl

/-- What the next state is after a transfer that sends something (R101, R108). -/
theorem transferred_eq (s : State) (p : Primitive) (v : BitVec 32) :
    s.transferred p v =
      { s with
        wire := s.wire ++ [p.event v]
        inFlight := if s.params.backend = .hardwareAssisted then s.inFlight ++ p.output else s.inFlight } := by
  rw [← queueAfter_eq_ite]
  rfl

/-- A nibble-pair read sends nothing, so it leaves the queue as it was (R106, R108). -/
theorem transferred_rnp (s : State) (v : BitVec 32) :
    s.transferred .rnp v = { s with wire := s.wire ++ [.rnp (v.setWidth 8)] } := by
  rw [transferred_eq, show Primitive.rnp.output = [] from rfl, List.append_nil, ite_self]
  rfl

/-- A micro-op that discards what it reads leaves `rbuf` as it was (R101). -/
theorem received_nil (s : State) : s.received [] = s := by
  rw [State.received, List.append_nil]

/-- Settles O30: `okOp` of `TX8`, `RX8` and `RX32`. -/
theorem spiTransfersMoveTheirBytes : Obligations.SpiTransfersMoveTheirBytes := by
  intro s v es hpin ha
  have hpre : (s.pinCfg == .spi && s.selActive) = true := by simp [hpin, ha]
  refine ⟨fun b h => ?_, fun h => ?_, fun h => ?_⟩
  · rw [step_dueWith_ok h hpre nofun, State.okOp, received_nil, transferred_eq]
    rfl
  · rw [step_dueWith_ok h hpre nofun, State.okOp, transferred_eq]
    rfl
  · rw [step_dueWith_ok h hpre nofun, State.okOp, transferred_eq]
    rfl

/-- Settles O31: `okOp` of `QTX`, `QRX` and `QSKIP`. -/
theorem qspiTransfersMoveTheirBytes : Obligations.QspiTransfersMoveTheirBytes := by
  intro s v es hpin ha
  have hpre : (s.pinCfg == .qspi && s.selActive) = true := by simp [hpin, ha]
  refine ⟨fun b h => ?_, fun h => ?_, fun h => ?_⟩
  · rw [step_dueWith_ok h hpre nofun, State.okOp, received_nil, transferred_eq]
    rfl
  · rw [step_dueWith_ok h hpre nofun, State.okOp, transferred_rnp]
    rfl
  · rw [step_dueWith_ok h hpre nofun, State.okOp, received_nil, transferred_rnp]
    rfl

/-- Settles O32: `PINS` and `MODE` whose preconditions hold, and `DRAIN` answered `Ok` or on a backend without a
queue. -/
theorem pinsModeAndDrainTakeEffect : Obligations.PinsModeAndDrainTakeEffect := by
  refine ⟨fun s m d es h ha => ?_, fun s m d es h ha hm => ?_, fun s d es h hd => ?_⟩
  · exact step_dueWith h (by simp [MicroOp.pre, ha])
  · exact step_dueWith h (by simp [MicroOp.pre, ha, hm])
  · have hok : admitDrain s.params.backend d.answer = .ok := by rcases hd with hd | hd <;> simp [hd]
    have hrun : runDrain d (s.withInputs es) = (s.withInputs es).drained.advance := by simp [runDrain, hok]
    exact (step_dueWith h rfl).trans (congrArg _ hrun)

/-- The timer's report with `SETTLE` due and no line held (R110). -/
theorem step_timer_settle {s : State} {us : Nat} {es : List Event} (hb : s.busy = true) (hd : s.dueOp = some .settle)
    (ha : s.selActive = false) (hin : s.inputs = .timer us :: es) :
    step s = .next (runSettle us (s.withInputs es)) := by
  have hd' : (s.withInputs es).dueOp = some .settle := hd
  simp [step, turn, hin, takeEvent, timerTurn, hb, hd', MicroOp.pre, ha]

/-- A report of at least the minimum ends `SETTLE` (R110). -/
theorem step_timer_enough {s : State} {us : Nat} {es : List Event} (hb : s.busy = true) (hd : s.dueOp = some .settle)
    (ha : s.selActive = false) (hin : s.inputs = .timer us :: es) (hus : s.params.resetSettleMinUs ≤ us) :
    step s = .next (s.withInputs es).advance :=
  (step_timer_settle hb hd ha hin).trans (congrArg _ (if_pos hus))

/-- A report below the minimum leaves `SETTLE` waiting (R110). -/
theorem step_timer_short {s : State} {us : Nat} {es : List Event} (hb : s.busy = true) (hd : s.dueOp = some .settle)
    (ha : s.selActive = false) (hin : s.inputs = .timer us :: es) (hus : us < s.params.resetSettleMinUs) :
    step s = .next (s.withInputs es) :=
  (step_timer_settle hb hd ha hin).trans (congrArg _ (if_neg (Nat.not_le.2 hus)))

/-- Settles O33: the timer's report, enough or short, and the sequencer's turn, which runs `SETTLE` without effect. -/
theorem settleEndsOnlyAfterTheMinimum : Obligations.SettleEndsOnlyAfterTheMinimum := by
  intro s es hb hd ha
  exact ⟨fun us hin => step_timer_enough hb hd ha hin, fun us hin => step_timer_short hb hd ha hin,
    fun d hin => step_dueWith ⟨hb, hd, hin⟩ (by simp [MicroOp.pre, ha])⟩

/-- A due micro-op whose precondition fails stops the sequencer (R111). -/
theorem step_dueWith_fault {s : State} {op : MicroOp} {d : Draw} {es : List Event} (h : s.dueWith op d es)
    (hp : op.pre s = false) : step s = .fault .internalPrecondition := by
  obtain ⟨hb, hd, hin⟩ := h
  have hd' : (s.withInputs es).dueOp = some op := hd
  have hp' : op.pre (s.withInputs es) = false := (pre_withInputs op s es).trans hp
  simp [step, turn, hin, takeEvent, sequencerTurn, hb, hd', hp']

/-- Settles O35: each clause says that a precondition fails. -/
theorem failedPreconditionFaults : Obligations.FailedPreconditionFaults := by
  intro s op d es h hcause
  refine step_dueWith_fault h ?_
  rcases hcause with ⟨i, rfl, ha⟩ | ⟨i, rfl, hi⟩ | ⟨hop, hs⟩ | ⟨hop, hs⟩ | ⟨hop, ha⟩ | ⟨m, rfl, hm⟩
  · simp [MicroOp.pre, ha]
  · rcases hi with hi | hi <;> simp [MicroOp.pre, hi]
  · have hpre : (s.pinCfg == .spi && s.selActive) = false := by rcases hs with hs | hs <;> simp [hs]
    rcases hop with rfl | rfl | ⟨b, rfl⟩ <;> exact hpre
  · have hpre : (s.pinCfg == .qspi && s.selActive) = false := by rcases hs with hs | hs <;> simp [hs]
    rcases hop with rfl | rfl | ⟨b, rfl⟩ <;> exact hpre
  · rcases hop with rfl | ⟨m, rfl⟩ <;> simp [MicroOp.pre, ha]
  · rcases hm with hm | hm <;> simp [MicroOp.pre, hm]

/-- Settles O40: the sequencer goes on by itself as the listed answer would have it do. -/
theorem unlistedAnswersAreFree : Obligations.UnlistedAnswersAreFree := by
  intro s hin
  have hfree : step s = freeTurn s := by simp only [step, turn, hin]
  have hlisted (e : Event) :
      step { s with inputs := [e], drawCount := s.drawCount + 1 } = takeEvent e s.countDraw := by
    rw [State.countDraw, ← hin]
    rfl
  refine ⟨fun hb => ?_, fun hb hd => ?_, fun hb hd => ?_⟩
  · simp [hfree, freeTurn, hb]
  · rw [hfree, hlisted, freeTurn, if_pos hb, hd]
    rfl
  · rw [hfree, hlisted, freeTurn, if_pos hb]
    split
    next hsettle => exact absurd hsettle hd
    next => rfl

end Sys2Proof.Machine

/-! SUPPORT. Completion and the identifier of RDID (40_transport_and_phases R125, 42_command_protocol R164). -/

namespace Sys2Proof.Machine

/-- Shifting one byte in puts it below those already put together (R56). -/
theorem shiftIn_byte {n : Nat} (x : BitVec n) (b : Byte) :
    (x.setWidth 64 <<< 8) ||| b.setWidth 64 = (x ++ b).setWidth 64 := by
  apply BitVec.eq_of_getLsbD_eq
  intro i hi
  rw [BitVec.getLsbD_or, BitVec.getLsbD_shiftLeft, BitVec.getLsbD_setWidth, BitVec.getLsbD_setWidth,
    BitVec.getLsbD_setWidth, BitVec.getLsbD_append]
  rcases Nat.lt_or_ge i 8 with hlow | hhigh
  · simp [hi, hlow]
  · have hx : i - 8 < 64 := by omega
    simp [hi, hhigh, hx]

/-- Eight bytes make the identifier, the first highest (R56, R125). -/
theorem idOfBytes_eight (b0 b1 b2 b3 b4 b5 b6 b7 : Byte) :
    idOfBytes [b0, b1, b2, b3, b4, b5, b6, b7] = b0 ++ b1 ++ b2 ++ b3 ++ b4 ++ b5 ++ b6 ++ b7 := by
  have hfirst : (0 : BitVec 64) <<< 8 ||| b0.setWidth 64 = b0.setWidth 64 := by simp
  simp only [idOfBytes, List.foldl_cons, List.foldl_nil, hfirst, shiftIn_byte, BitVec.setWidth_eq]

theorem vendorKgdOf_eight (b0 b1 b2 b3 b4 b5 b6 b7 : Byte) :
    vendorKgdOf (b0 ++ b1 ++ b2 ++ b3 ++ b4 ++ b5 ++ b6 ++ b7) = b0 ++ b1 := by
  apply BitVec.eq_of_toNat_eq
  simp only [vendorKgdOf, BitVec.extractLsb'_toNat, toNat_append_eq, Nat.shiftRight_eq_div_pow]
  omega

theorem eidOf_eight (b0 b1 b2 b3 b4 b5 b6 b7 : Byte) :
    eidOf (b0 ++ b1 ++ b2 ++ b3 ++ b4 ++ b5 ++ b6 ++ b7) = b2 ++ b3 ++ b4 ++ b5 ++ b6 ++ b7 := by
  apply BitVec.eq_of_toNat_eq
  simp only [eidOf, BitVec.extractLsb'_toNat, toNat_append_eq, Nat.shiftRight_eq_div_pow]
  omega

/-- The response of an RDID that has read eight bytes (R125, R164). -/
theorem completionResponse_readId (b0 b1 b2 b3 b4 b5 b6 b7 : Byte) :
    completionResponse 0x3 [b0, b1, b2, b3, b4, b5, b6, b7] =
      { status := .ok
        rdata := [b0, b1, b2, b3, b4, b5, b6, b7]
        id := some (b0 ++ b1 ++ b2 ++ b3 ++ b4 ++ b5 ++ b6 ++ b7)
        vendorKgd := some (b0 ++ b1)
        eid := some (b2 ++ b3 ++ b4 ++ b5 ++ b6 ++ b7) } := by
  rw [completionResponse, if_pos rfl, idOfBytes_eight, vendorKgdOf_eight, eidOf_eight]

/-- Settles O37: completion, with the response of any other command or of RDID. -/
theorem completionResponds : Obligations.CompletionResponds := by
  intro s d es hb hl hin
  have hstep := step_complete hb hl hin
  refine ⟨fun hcmd => ?_, fun b0 b1 b2 b3 b4 b5 b6 b7 hcmd hr => ?_⟩
  · have hresp : completionResponse s.curCmd s.rbuf = plainResponse .ok s.rbuf := if_neg hcmd
    rw [hstep, State.complete, State.withInputs_curCmd, State.withInputs_rbuf, hresp]
    rfl
  · have hresp := completionResponse_readId b0 b1 b2 b3 b4 b5 b6 b7
    rw [← hr, ← hcmd] at hresp
    rw [hstep, State.complete, State.withInputs_curCmd, State.withInputs_rbuf, hresp]
    rfl

end Sys2Proof.Machine

/-! SUPPORT. The bits of a primitive on the wire, cycle by cycle (40_transport_and_phases R103 to R106). -/

namespace Sys2Proof.Machine

/-- A byte of a word goes over the wire as the word's own bits, the byte's highest first (R104). -/
theorem xbCycles_extractLsb' (w r : BitVec 32) (k : Nat) :
    xbCycles (w.extractLsb' k 8) (r.extractLsb' k 8) =
      (List.range 8).map fun j => spiCycle (w.getLsbD (k + (7 - j))) (r.getLsbD (k + (7 - j))) := by
  refine List.map_congr_left fun j hj => ?_
  have hlt : 7 - j < 8 := by omega
  simp [hlt]

/-- Settles O46: bit `7 - j` of each byte stands in cycle `j`, and the word's 32 cycles are those of its four bytes. -/
theorem spiBitsGoMostSignificantFirst : Obligations.SpiBitsGoMostSignificantFirst := by
  refine ⟨fun b r => ⟨by simp [xbCycles], fun j hj => ?_⟩, fun w r => ?_⟩
  · exact ⟨spiCycle (b.getLsbD (7 - j)) (r.getLsbD (7 - j)), by simp [xbCycles, hj], rfl, rfl, rfl, rfl⟩
  · simp only [xbCycles_extractLsb']
    rfl

/-- A bit of a nibble is a bit of its byte, as numbers (R105, R106). -/
theorem nibble_testBit (b : Byte) (start k : Nat) (hk : k < 4 := by decide) :
    some ((b.extractLsb' start 4).getLsbD k) = some (b.toNat.testBit (start + k)) := by
  rw [BitVec.getLsbD_extractLsb', decide_eq_true hk, Bool.true_and]
  rfl

/-- Settles O47: bit `k` of the upper nibble is bit `4 + k` of the byte, and bit `k` of the lower nibble its bit `k`. -/
theorem nibblePairsGoUpperFirst : Obligations.NibblePairsGoUpperFirst := by
  refine ⟨fun b => ⟨_, _, rfl, ?_⟩, fun r => ⟨_, _, rfl, ?_⟩⟩
  · exact ⟨nibble_testBit b 4 3, nibble_testBit b 4 2, nibble_testBit b 4 1, nibble_testBit b 4 0,
      nibble_testBit b 0 3, nibble_testBit b 0 2, nibble_testBit b 0 1, nibble_testBit b 0 0⟩
  · exact ⟨nibble_testBit r 4 3, nibble_testBit r 4 2, nibble_testBit r 4 1, nibble_testBit r 4 0,
      nibble_testBit r 0 3, nibble_testBit r 0 2, nibble_testBit r 0 1, nibble_testBit r 0 0⟩

end Sys2Proof.Machine

/-! SUPPORT. A command under way, its micro-ops answered one after the other: what a stretch of its expansion leaves
when every answer is `Ok`, and that it ends whatever the answers are (40_transport_and_phases R123 to R125, R129). -/

namespace Sys2Proof.Machine

/-- A command is running and `ops` of its expansion are left. -/
structure State.Running (s : State) (ops : List MicroOp) : Prop where
  inv : Inv s
  busy : s.busy = true
  left : s.prog.drop s.upc = ops

/-- The event with which an agent answers the micro-op so that it returns `Ok` with value `v`: for `SETTLE` a report of
at least the minimum wait (R102, R110). -/
def OkAnswer (p : Params) (op : MicroOp) (v : BitVec 32) (e : Event) : Prop :=
  match op with
  | .settle => ∃ us, p.resetSettleMinUs ≤ us ∧ e = .timer us
  | _ => e = okEvent v

/-- Every micro-op of the list is answered so that it returns `Ok` with its value. -/
inductive OkAnswers (p : Params) : List MicroOp → List (BitVec 32) → List Event → Prop where
  | nil : OkAnswers p [] [] []
  | cons {op : MicroOp} {ops : List MicroOp} {v : BitVec 32} {vs : List (BitVec 32)} {e : Event} {es : List Event}
      (first : OkAnswer p op v e) (rest : OkAnswers p ops vs es) : OkAnswers p (op :: ops) (v :: vs) (e :: es)

/-- What micro-ops that return `Ok` with these values put in the wire trace. -/
def wireOf (ops : List MicroOp) (vs : List (BitVec 32)) : List WireEvent :=
  (List.zipWith MicroOp.wireEvents ops vs).flatten

/-- The bytes that micro-ops that return `Ok` with these values append to `rbuf`. -/
def readsOf (ops : List MicroOp) (vs : List (BitVec 32)) : List Byte :=
  (List.zipWith MicroOp.readBytes ops vs).flatten

theorem wireOf_cons (op : MicroOp) (ops : List MicroOp) (v : BitVec 32) (vs : List (BitVec 32)) :
    wireOf (op :: ops) (v :: vs) = op.wireEvents v ++ wireOf ops vs := by simp [wireOf]

theorem readsOf_cons (op : MicroOp) (ops : List MicroOp) (v : BitVec 32) (vs : List (BitVec 32)) :
    readsOf (op :: ops) (v :: vs) = op.readBytes v ++ readsOf ops vs := by simp [readsOf]

/-- From `s` the micro-ops `ops` have all returned `Ok` with the values `vs`, and `t` is what they leave. -/
structure State.Ran (s t : State) (ops : List MicroOp) (vs : List (BitVec 32)) (es : List Event) : Prop where
  inputs : t.inputs = es
  wire : t.wire = s.wire ++ wireOf ops vs
  rbuf : t.rbuf = s.rbuf ++ readsOf ops vs
  pose : walk s.params s.pose ops = some t.pose
  /-- nothing else is written but the lines and `upc` -/
  frame : t =
    { s with
      inputs := t.inputs, wire := t.wire, rbuf := t.rbuf, upc := t.upc, csN := t.csN, selActive := t.selActive
      selId := t.selId, pinCfg := t.pinCfg, wireMode := t.wireMode, inFlight := t.inFlight }

/-- What a micro-op that returns `Ok` writes at most. -/
theorem okOp_frame (s : State) (op : MicroOp) (v : BitVec 32) :
    s.okOp op v =
      { s with
        wire := (s.okOp op v).wire, rbuf := (s.okOp op v).rbuf, upc := (s.okOp op v).upc, csN := (s.okOp op v).csN
        selActive := (s.okOp op v).selActive, selId := (s.okOp op v).selId, pinCfg := (s.okOp op v).pinCfg
        wireMode := (s.okOp op v).wireMode, inFlight := (s.okOp op v).inFlight } := by
  cases op <;> rfl

/-- What a micro-op that returns `Ok` puts in the wire trace (R101, R141, R142). -/
theorem okOp_wire (s : State) (op : MicroOp) (v : BitVec 32) : (s.okOp op v).wire = s.wire ++ op.wireEvents v := by
  cases op with
  | drain => exact (List.append_nil _).symm
  | mode m => exact (List.append_nil _).symm
  | settle => exact (List.append_nil _).symm
  | _ => rfl

/-- No micro-op has run yet. -/
theorem State.Ran.nil (s : State) : s.Ran s [] [] s.inputs where
  inputs := rfl
  wire := (List.append_nil _).symm
  rbuf := (List.append_nil _).symm
  pose := rfl
  frame := rfl

/-- One micro-op, then the rest. -/
theorem State.Ran.cons {s t : State} {op : MicroOp} {ops : List MicroOp} {v : BitVec 32} {vs : List (BitVec 32)}
    {es es' : List Event} {q : Pose} (hq : s.pose.after s.params op = some q)
    (h : ((s.withInputs es').okOp op v).Ran t ops vs es) : s.Ran t (op :: ops) (v :: vs) es := by
  have hpose : ((s.withInputs es').okOp op v).pose = q := okOp_pose (s := s.withInputs es') hq
  have hparams : ((s.withInputs es').okOp op v).params = s.params := (okOp_same _ op v).1
  refine ⟨h.inputs, ?_, ?_, ?_, ?_⟩
  · rw [h.wire, okOp_wire, wireOf_cons, List.append_assoc]
    rfl
  · rw [h.rbuf, okOp_rbuf_eq, readsOf_cons, List.append_assoc]
    rfl
  · rw [walk, hq]
    exact hparams ▸ hpose ▸ h.pose
  · have hframe := h.frame
    rw [okOp_frame] at hframe
    exact hframe

section
variable {s : State} {op : MicroOp} {ops : List MicroOp}

/-- The micro-op that is due is the first of those left (R123). -/
theorem State.Running.due (h : s.Running (op :: ops)) : s.dueOp = some op := by
  rw [State.dueOp, ← List.head?_drop, h.left]
  rfl

/-- The events to come are no part of a running command. -/
theorem State.Running.withInputs (h : s.Running ops) (es : List Event) : (s.withInputs es).Running ops :=
  ⟨.of_sameBlock (s := s) rfl h.inv, h.busy, h.left⟩

/-- A micro-op that returns `Ok` leaves the rest of the expansion (R124). -/
theorem State.Running.okOp (h : s.Running (op :: ops)) (v : BitVec 32) : (s.okOp op v).Running ops := by
  obtain ⟨-, hbusy, hprog, hupc, -⟩ := okOp_same s op v
  refine ⟨h.inv.okOp h.busy h.due v, hbusy.trans h.busy, ?_⟩
  rw [hprog, hupc]
  exact (List.cons.inj ((drop_of_dueOp h.due).symm.trans h.left)).2

/-- The sequencer's step with the due micro-op answered so that it returns `Ok` (R110, R123). -/
theorem State.Running.step_okAnswer {v : BitVec 32} {e : Event} {es : List Event} (h : s.Running (op :: ops))
    (ha : OkAnswer s.params op v e) (hin : s.inputs = e :: es) : step s = .next ((s.withInputs es).okOp op v) := by
  have hpre := h.inv.pre_due h.busy h.due
  cases op with
  | settle =>
    obtain ⟨us, hus, rfl⟩ := ha
    exact step_timer_enough h.busy h.due (by simpa [MicroOp.pre] using hpre) hin hus
  | _ =>
    cases ha
    exact step_dueWith_ok ⟨h.busy, h.due, hin⟩ hpre nofun

end

/-- A stretch of micro-ops answered `Ok` runs one step each (R123, R124). -/
theorem State.Running.run_ok {ops rest : List MicroOp} {vs : List (BitVec 32)} {evs es : List Event} {s : State}
    (h : s.Running (ops ++ rest)) (ha : OkAnswers s.params ops vs evs) (hin : s.inputs = evs ++ es) :
    ∃ t, runSteps ops.length s = .next t ∧ t.Running rest ∧ s.Ran t ops vs es := by
  induction ops generalizing s vs evs with
  | nil =>
    cases ha
    obtain rfl : s.inputs = es := hin
    exact ⟨s, rfl, h, .nil s⟩
  | cons op ops ih =>
    cases ha with
    | @cons _ _ v vs e evs first others =>
    obtain ⟨q, hq, -⟩ := h.inv.runs_due h.busy h.due
    have hparams : ((s.withInputs (evs ++ es)).okOp op v).params = s.params := (okOp_same _ op v).1
    have hinputs : ((s.withInputs (evs ++ es)).okOp op v).inputs = evs ++ es := by rw [okOp_frame]; rfl
    obtain ⟨t, hrun, hleft, hran⟩ := ih ((h.withInputs _).okOp v) (hparams ▸ others) hinputs
    exact ⟨t, (runSteps_succ (h.step_okAnswer first hin)).trans hrun, hleft, hran.cons hq⟩

/-- Past the last micro-op the command completes, and the block keeps its invariants (R125). -/
theorem State.Running.complete {s : State} {d : Draw} {es : List Event} (h : s.Running [])
    (hin : s.inputs = .transport d :: es) :
    step s = .next (s.withInputs es).complete ∧ Inv (s.withInputs es).complete := by
  have hlast : s.upc = s.prog.length := Nat.le_antisymm h.inv.upc (List.drop_eq_nil_iff.1 h.left)
  have hstep := step_complete h.busy hlast hin
  exact ⟨hstep, stepKeepsTheInvariant s _ h.inv hstep⟩

/-- With the invariants an idle block holds no selection (R35d). -/
theorem Inv.idle_free {s : State} (hs : Inv s) (hb : s.busy = false) : s.selActive = false :=
  ((Pose.atRest_iff _).1 (hs.pose_atRest hb)).1

/-! ### The answers as the statements list them, by their places -/

theorem answerEvents_cons (p : Params) (d : Nat → Draw) (op : MicroOp) (ops : List MicroOp) :
    answerEvents p d (op :: ops) = answerEvent p op (d 0) :: answerEvents p (fun n => d (n + 1)) ops := by
  simp [answerEvents, List.mapIdx_cons]

/-- The listed answer with an `Ok` draw is one with which the micro-op returns `Ok` (R102, R110). -/
theorem okAnswer_answerEvent (p : Params) (op : MicroOp) (v : Nat → BitVec 32) (n : Nat) :
    OkAnswer p op (v n) (answerEvent p op (okDraws v n)) := by
  cases op with
  | settle => exact ⟨p.resetSettleMinUs, Nat.le_refl _, rfl⟩
  | _ => rfl

/-- The listed answers with `Ok` draws let every micro-op return `Ok`. -/
theorem okAnswers_answerEvents (p : Params) (v : Nat → BitVec 32) (ops : List MicroOp) :
    OkAnswers p ops (ops.mapIdx fun n _ => v n) (ops.mapIdx fun n op => answerEvent p op (okDraws v n)) := by
  induction ops generalizing v with
  | nil => exact .nil
  | cons op ops ih =>
    rw [List.mapIdx_cons, List.mapIdx_cons]
    exact .cons (okAnswer_answerEvent p op v 0) (ih fun n => v (n + 1))

/-- A list beside the values of its places, taken together. -/
theorem zipWith_mapIdx {α β γ : Type} (f : α → β → γ) (v : Nat → β) (l : List α) :
    List.zipWith f l (l.mapIdx fun n _ => v n) = l.mapIdx fun n a => f a (v n) := by
  apply List.ext_getElem <;> simp

theorem progWire_eq_wireOf (v : Nat → BitVec 32) (prog : List MicroOp) :
    progWire v prog = wireOf prog (prog.mapIdx fun n _ => v n) := by
  rw [wireOf, zipWith_mapIdx, progWire]

theorem progReads_eq_readsOf (v : Nat → BitVec 32) (prog : List MicroOp) :
    progReads v prog = readsOf prog (prog.mapIdx fun n _ => v n) := by
  rw [readsOf, zipWith_mapIdx, progReads]

/-- A completed command hands over the bytes read (R125). -/
@[simp] theorem completionResponse_rdata (cmd : CmdCode) (rbuf : List Byte) :
    (completionResponse cmd rbuf).rdata = rbuf := by
  unfold completionResponse
  split <;> rfl

/-- Settles O49: the expansion runs, one step a micro-op, and its completion step ends it. -/
theorem acceptedExpansionRunsToCompletion : Obligations.AcceptedExpansionRunsToCompletion := by
  intro s v es hs hb hupc hrbuf hin
  have hrunning : s.Running (s.prog ++ []) := ⟨hs, hb, by rw [hupc, List.drop_zero, List.append_nil]⟩
  rw [answerEvents, List.append_assoc] at hin
  obtain ⟨t, hrun, hleft, hran⟩ := hrunning.run_ok (okAnswers_answerEvents s.params v s.prog) hin
  obtain ⟨hstep, hinv⟩ := hleft.complete hran.inputs
  obtain ⟨hpins, hprog, hstart, -, -, hqueue⟩ := hinv.idle rfl
  have hfree := hinv.idle_free rfl
  have hread : t.rbuf = progReads v s.prog := by rw [hran.rbuf, hrbuf, progReads_eq_readsOf, List.nil_append]
  have hwanted : t.rbuf.length = bytesWanted s.curCmd s.curLen := by
    have hreads := hleft.inv.reads hleft.busy
    rw [hleft.left, bytesToRead_nil, Nat.add_zero, hran.frame] at hreads
    exact hreads
  refine ⟨_, completionResponse t.curCmd t.rbuf, ?_, rfl, ?_, completionResponse_status .., ?_, ?_, ?_, rfl, rfl, hfree,
    hinv.all_high hfree, hpins, hprog, hstart, hqueue⟩
  · rw [runSteps_add hrun, runSteps_succ hstep, runSteps_zero]
  · rw [progWire_eq_wireOf]
    exact hran.wire
  · rw [completionResponse_rdata, hread]
  · rw [completionResponse_rdata, hwanted]
  · have hhost : t.curHost = s.curHost := (congrArg State.curHost hran.frame :)
    have hresponses : t.responses = s.responses := (congrArg State.responses hran.frame :)
    rw [← hhost, ← hresponses]
    rfl

/-- The sequencer's step with the due micro-op answered in any way: it returns `Ok` or ends in the recovery (R123,
R124, R236). -/
theorem State.Running.step_answerEvent {s : State} {op : MicroOp} {ops : List MicroOp} {d : Draw} {es : List Event}
    (h : s.Running (op :: ops)) (hin : s.inputs = answerEvent s.params op d :: es) :
    step s = .next ((s.withInputs es).okOp op d.value) ∨
      ∃ e, step s = .next (((s.withInputs es).failedOp op).recover e) := by
  by_cases hs : op = .settle
  · subst hs
    exact .inl (h.step_okAnswer (v := d.value) ⟨_, Nat.le_refl _, rfl⟩ hin)
  · have hin' : s.inputs = .transport d :: es := by
      rw [hin]
      cases op with
      | settle => exact absurd rfl hs
      | _ => rfl
    have hpre := h.inv.pre_due h.busy h.due
    rw [step_dueWith ⟨h.busy, h.due, hin'⟩ hpre]
    rcases runOp_cases d ((pre_withInputs op s es).trans hpre) with ⟨hsettle, -⟩ | hok | ⟨-, hfail⟩ | hfail
    · exact absurd hsettle hs
    · exact .inl (congrArg _ hok)
    · exact .inr ⟨_, congrArg _ hfail⟩
    · exact .inr ⟨_, congrArg _ hfail⟩

/-- The recovery after a failed micro-op responds to the running command's host with the bytes read so far (R236). -/
theorem failedOp_recover_responses (s : State) (op : MicroOp) (e : Status) :
    ((s.failedOp op).recover e).responses =
      s.responses ++ [{ host := s.curHost, response := plainResponse e s.rbuf }] := by
  obtain ⟨w, hw⟩ := failedOp_eq s op
  rw [hw]
  rfl

/-- A running command has ended within `n` steps in `t`, with one response to its host (R125, R236). -/
structure State.EndsIn (s t : State) (n : Nat) : Prop where
  run : runSteps n s = .next t
  idle : t.busy = false
  inv : Inv t
  response : ∃ r, t.responses = s.responses ++ [{ host := s.curHost, response := r }] ∧ r.status = t.lastStatus

/-- A running command ends within as many steps as it has micro-ops left and one more, whatever the answers are, by
induction on what is left: a micro-op that fails ends it at once (R129). -/
theorem State.Running.ends {ops : List MicroOp} {s : State} {d : Nat → Draw} {es : List Event} (h : s.Running ops)
    (hin : s.inputs = answerEvents s.params d ops ++ es) : ∃ n t, n ≤ ops.length + 1 ∧ s.EndsIn t n := by
  induction ops generalizing s d with
  | nil =>
    obtain ⟨hstep, hinv⟩ := h.complete hin
    exact ⟨1, _, Nat.le_refl 1, runSteps_succ hstep, rfl, hinv, _, rfl, completionResponse_status ..⟩
  | cons op ops ih =>
    rw [answerEvents_cons, List.cons_append] at hin
    generalize hrest : answerEvents s.params (fun n => d (n + 1)) ops ++ es = rest at hin
    rcases h.step_answerEvent hin with hstep | ⟨e, hstep⟩
    · obtain ⟨hparams, -, -, -, hhost, -, -, -, -, -, -, hresponses, -⟩ := okOp_same (s.withInputs rest) op (d 0).value
      have hinputs : ((s.withInputs rest).okOp op (d 0).value).inputs = rest := by rw [okOp_frame]; rfl
      obtain ⟨n, t, hn, hend⟩ :=
        ih ((h.withInputs rest).okOp (d 0).value) (hinputs.trans (by rw [hparams, ← hrest]; rfl))
      obtain ⟨r, hr, hstatus⟩ := hend.response
      rw [hresponses, hhost] at hr
      exact ⟨n + 1, t, Nat.succ_le_succ hn, (runSteps_succ hstep).trans hend.run, hend.idle, hend.inv, r, hr, hstatus⟩
    · have hinv := stepKeepsTheInvariant s _ h.inv hstep
      exact ⟨1, _, Nat.succ_le_succ (Nat.zero_le _), runSteps_succ hstep, rfl, hinv, _,
        failedOp_recover_responses (s.withInputs rest) op e, rfl⟩

/-- Settles O50: what is left of the accepted command's expansion ends, and an idle block has every line high. -/
theorem everyAcceptedCommandEnds : Obligations.EveryAcceptedCommandEnds := by
  intro s d es hs hb hin
  obtain ⟨n, t, hn, hend⟩ := State.Running.ends ⟨hs, hb, rfl⟩ hin
  obtain ⟨r, hr, hstatus⟩ := hend.response
  rw [List.length_drop] at hn
  exact ⟨n, t, r, hn, hend.run, hend.idle, hr, hstatus, hend.inv.all_high (hend.inv.idle_free hend.idle)⟩

end Sys2Proof.Machine

/-! SUPPORT. A command from submission to response, every primitive answered `Ok`, as one equation of whole states; and
RSTEN, TGLBL and RST (40_transport_and_phases R120 to R125, 42_command_protocol R161, R162, R165). -/

namespace Sys2Proof.Machine

/-- The block after host `h` has had command `i` accepted, `es` the events to come (R120). -/
def State.begun (s : State) (i : Instr) (h : Nat) (wd : List Byte) (es : List Event) : State :=
  ((s.withInputs es).present h wd).accept (infoOf i) i.line i.addr i.len (expansionOf i s.params wd)

section
variable {s : State} {i : Instr} {h : Nat} {wd : List Byte}

/-- An idle block whose checks pass begins the command's expansion (R120). -/
theorem Inv.begun (hs : Inv s) (hb : s.busy = false) (hh : h < s.params.nHost)
    (hc : idleCheck (infoOf i) i.line i.len (s.present h wd) = none) (es : List Event) :
    (s.begun i h wd es).Running (expansionOf i s.params wd) where
  inv := Inv.accept (s := (s.withInputs es).present h wd) (.of_sameBlock (s := s) rfl hs) hb hh hc
  busy := rfl
  left := rfl

/-- A command that has begun, has run its whole expansion and has completed leaves what `State.afterCommand` says, with
the mode and the pins at which its walk ends (R120, R125). -/
theorem Inv.complete_begun (hs : Inv s) (hb : s.busy = false) {t : State} {vs : List (BitVec 32)} {es es' : List Event}
    {d : Draw} {q : Pose} (hq : walk s.params s.pose (expansionOf i s.params wd) = some q) (hleft : t.Running [])
    (hran : (s.begun i h wd es').Ran t (expansionOf i s.params wd) vs (.transport d :: es)) :
    (t.withInputs es).complete =
      { s.afterCommand i h wd q.id (wireOf (expansionOf i s.params wd) vs)
          (completionResponse i.code (readsOf (expansionOf i s.params wd) vs)) es with
        wireMode := q.mode
        pinCfg := q.pin } := by
  obtain ⟨-, hdone⟩ := hleft.complete hran.inputs
  obtain ⟨-, -, -, -, -, hdrained⟩ := hdone.idle rfl
  obtain ⟨-, hprog, hupc, hrbuf, hwbuf, hqueue⟩ := hs.idle hb
  obtain rfl : t.pose = q := Option.some.inj (hran.pose.symm.trans hq)
  have hfree : t.selActive = s.selActive := (hdone.idle_free rfl).trans (hs.idle_free hb).symm
  have hempty : t.inFlight = s.inFlight := hdrained.trans hqueue.symm
  have hparams : t.params = s.params := (congrArg State.params hran.frame :)
  have hlines : t.csN = s.csN := by
    rw [hleft.inv.lines, hs.lines, hfree, hs.idle_free hb, hparams]
    exact linesOf_none ..
  have hframe := hran.frame
  rw [hran.inputs, hran.wire, hran.rbuf, hfree, hempty, hlines] at hframe
  rw [hframe]
  simp [State.complete, State.afterCommand, State.begun, State.pose, infoOf_code, hb, hprog, hupc, hrbuf, hwbuf]

/-- A command from submission to response: the submission, one step for each micro-op, and the completion step (R120 to
R125). -/
theorem Inv.run_command (hs : Inv s) (hb : s.busy = false) (hh : h < s.params.nHost)
    (hc : idleCheck (infoOf i) i.line i.len (s.present h wd) = none) {vs : List (BitVec 32)} {evs es : List Event}
    {d : Draw} {q : Pose} (hq : walk s.params s.pose (expansionOf i s.params wd) = some q)
    (ha : OkAnswers s.params (expansionOf i s.params wd) vs evs)
    (hin : s.inputs = .submit h (encode i) wd :: (evs ++ .transport d :: es)) :
    runSteps ((expansionOf i s.params wd).length + 2) s = .next
      { s.afterCommand i h wd q.id (wireOf (expansionOf i s.params wd) vs)
          (completionResponse i.code (readsOf (expansionOf i s.params wd) vs)) es with
        wireMode := q.mode
        pinCfg := q.pin } := by
  have hbegun := step_submit_accepted hin hb hh hc
  have hrunning := hs.begun hb hh hc (evs ++ .transport d :: es)
  rw [← List.append_nil (expansionOf i s.params wd)] at hrunning
  obtain ⟨t, hrun, hleft, hran⟩ := hrunning.run_ok ha rfl
  rw [← hs.complete_begun hb hq hleft hran, runSteps_succ hbegun]
  exact (runSteps_add hrun).trans (runSteps_succ (hleft.complete hran.inputs).1)

end

/-- Micro-ops other than `SETTLE` return `Ok` where the transport answers each so (R102). -/
theorem okAnswers_okEvents (p : Params) {ops : List MicroOp} (hs : ∀ op ∈ ops, op ≠ .settle) {vs : List (BitVec 32)}
    (hlen : vs.length = ops.length) : OkAnswers p ops vs (vs.map okEvent) := by
  induction ops generalizing vs with
  | nil =>
    obtain rfl := List.length_eq_zero_iff.1 hlen
    exact .nil
  | cons op ops ih =>
    obtain ⟨v, vs, rfl⟩ := List.exists_cons_of_length_eq_add_one hlen
    have hop : op ≠ .settle := hs op (by simp)
    refine .cons ?_ (ih (fun o ho => hs o (by simp [ho])) (by simpa using hlen))
    cases op with
    | settle => exact absurd rfl hop
    | _ => rfl

theorem OkAnswers.append {p : Params} {ops ops' : List MicroOp} {vs vs' : List (BitVec 32)} {es es' : List Event}
    (h : OkAnswers p ops vs es) (h' : OkAnswers p ops' vs' es') :
    OkAnswers p (ops ++ ops') (vs ++ vs') (es ++ es') := by
  induction h with
  | nil => exact h'
  | cons first _ ih => exact .cons first ih

/-- Reports that are all shorter than the minimum leave `SETTLE` waiting (R110). -/
theorem State.Running.run_short_reports {ops : List MicroOp} {reports : List Nat} {s : State} {es : List Event}
    (h : s.Running (.settle :: ops)) (hshort : ∀ r ∈ reports, r < s.params.resetSettleMinUs)
    (hin : s.inputs = reports.map .timer ++ es) : runSteps reports.length s = .next (s.withInputs es) := by
  induction reports generalizing s with
  | nil =>
    rw [← show s.inputs = es from hin]
    rfl
  | cons r reports ih =>
    have hfree : s.selActive = false := by simpa [MicroOp.pre] using h.inv.pre_due h.busy h.due
    have hstep := step_timer_short h.busy h.due hfree hin (hshort r (by simp))
    rw [List.length_cons, runSteps_succ hstep]
    exact ih (h.withInputs _) (fun r hr => hshort r (by simp [hr])) rfl

/-- `SETTLE` with no line held leaves the pose (R110). -/
theorem walk_settle (p : Params) {q : Pose} (hq : q.sel = false) : walk p q [.settle] = some q := by
  simp [walk, Pose.after, hq]

section
variable {s : State} {h : Nat} {wd : List Byte} {i : Instr} {code : CmdCode} (hs : Inv s) (hb : s.busy = false)
  (hm : s.wireMode = .spi) (hh : h < s.params.nHost) (hl : i.line.toNat < s.params.nCs)
  (hi : infoOf i = controlInfo code)
include hs hb hm hh hl hi

/-- A device control command whose expansion leaves the pose but for its line, from submission to response (R120 to
R125). -/
theorem Inv.run_control {vs : List (BitVec 32)} {evs es : List Event} {d : Draw}
    (hq : walk s.params s.pose (expansionOf i s.params wd) = some { s.pose with id := i.line })
    (ha : OkAnswers s.params (expansionOf i s.params wd) vs evs)
    (hin : s.inputs = .submit h (encode i) wd :: (evs ++ .transport d :: es)) :
    runSteps ((expansionOf i s.params wd).length + 2) s = .next
      (s.afterCommand i h wd i.line (wireOf (expansionOf i s.params wd) vs)
        (completionResponse i.code (readsOf (expansionOf i s.params wd) vs)) es) :=
  hs.run_command hb hh (hi ▸ idleCheck_control_eq_none hm hl) hq ha hin

/-- A device control command whose expansion ends in `SETTLE` waits for the timer however many short reports it is given
(R110, R119). -/
theorem Inv.run_control_waits {ops : List MicroOp} {vs : List (BitVec 32)} {evs es : List Event} {reports : List Nat}
    (hx : expansionOf i s.params wd = ops ++ [.settle]) (ha : OkAnswers s.params ops vs evs)
    (hshort : ∀ r ∈ reports, r < s.params.resetSettleMinUs)
    (hin : s.inputs = .submit h (encode i) wd :: (evs ++ (reports.map .timer ++ es))) :
    ∃ t, runSteps (ops.length + reports.length + 1) s = .next t ∧ t.inputs = es ∧ t.busy = true ∧ t.curHost = h ∧
      t.dueOp = some .settle ∧ t.responses = s.responses := by
  have hc : idleCheck (infoOf i) i.line i.len (s.present h wd) = none := hi ▸ idleCheck_control_eq_none hm hl
  have hrunning := hs.begun hb hh hc (evs ++ (reports.map .timer ++ es))
  rw [hx] at hrunning
  obtain ⟨t, hrun, hleft, hran⟩ := hrunning.run_ok ha rfl
  have hparams : t.params = s.params := (congrArg State.params hran.frame :)
  have hwait := hleft.run_short_reports (hparams ▸ hshort) hran.inputs
  refine ⟨t.withInputs es, ?_, rfl, hleft.busy, (congrArg State.curHost hran.frame :), hleft.due,
    (congrArg State.responses hran.frame :)⟩
  rw [runSteps_succ (step_submit_accepted hin hb hh hc)]
  exact (runSteps_add hrun).trans hwait

end

/-- Settles O51: RSTEN and TGLBL are one frame, RST is a frame and `SETTLE`, which a long enough report ends. -/
theorem controlCommandsSendTheirOpcode : Obligations.ControlCommandsSendTheirOpcode := by
  intro s h wd cs a l x0 x1 x2 x3 x4 us es hs hb hm hh hl
  have hframe (phases : List Phase) :
      walk s.params s.pose (frame cs (body phases .spi)) = some { s.pose with id := cs } :=
    walk_frame_atRest (hs.pose_atRest hb) hl hm.symm phases
  have hanswers (opcode : Byte) : OkAnswers s.params [.sel cs, .tx8 opcode, .drain, .unsel cs] [x0, x1, x2, x3]
      ([x0, x1, x2, x3].map okEvent) := okAnswers_okEvents _ (by simp) rfl
  refine ⟨fun hin => ?_, fun hin => ?_, fun hin hus => ?_, fun reports hin hshort => ?_⟩
  · exact hs.run_control (i := .rsten cs a l) hb hm hh hl rfl (hframe _) (hanswers 0x66) hin
  · exact hs.run_control (i := .tglbl cs a l) hb hm hh hl rfl (hframe _) (hanswers 0xC0) hin
  · have hwalk : walk s.params s.pose (expansionOf (.rst cs a l) s.params wd) = some { s.pose with id := cs } := by
      rw [expansionOf, walk_append, hframe]
      exact walk_settle _ (hs.idle_free hb)
    have hsettle : OkAnswers s.params [.settle] [0] [.timer us] := .cons ⟨us, hus, rfl⟩ .nil
    exact hs.run_control (i := .rst cs a l) hb hm hh hl rfl hwalk ((hanswers 0x99).append hsettle) hin
  · obtain ⟨t, hrun, hend⟩ := hs.run_control_waits (i := .rst cs a l) hb hm hh hl rfl (expansionOf_rst ..)
      (hanswers 0x99) hshort (by rw [hin, List.append_assoc])
    have hsteps : 5 + reports.length = 4 + reports.length + 1 := by omega
    exact ⟨t, hsteps ▸ hrun, hend⟩

end Sys2Proof.Machine

/-! SUPPORT. Commands of one frame from submission to response: RDID and the data transfer commands
(40_transport_and_phases R118 to R125, 42_command_protocol R163, R164, R166 to R169). -/

namespace Sys2Proof.Machine

/-- R164: the vendor/KGD code of an identifier as a number. -/
theorem vendorKgdOf_toNat (id : BitVec 64) : (vendorKgdOf id).toNat = id.toNat / 2 ^ 48 := by
  rw [vendorKgdOf, BitVec.extractLsb'_toNat, Nat.shiftRight_eq_div_pow]
  omega

/-- R164: the EID of an identifier as a number. -/
theorem eidOf_toNat (id : BitVec 64) : (eidOf id).toNat = id.toNat % 2 ^ 48 := by
  rw [eidOf, BitVec.extractLsb'_toNat, Nat.shiftRight_zero]

/-- Settles O38: both parts as numbers, and the quotient and the remainder put together. -/
theorem readIdSplitsTheIdentifier : Obligations.ReadIdSplitsTheIdentifier := by
  intro id
  refine ⟨vendorKgdOf_toNat id, eidOf_toNat id, BitVec.eq_of_toNat_eq ?_⟩
  rw [toNat_append_eq, vendorKgdOf_toNat, eidOf_toNat]
  omega

/-- The bytes of two words make the identifier, the first word its upper half (R56, R164). -/
theorem idOfBytes_wordBytes (hi lo : BitVec 32) : idOfBytes (wordBytes hi ++ wordBytes lo) = hi ++ lo := by
  rw [wordBytes, wordBytes, List.cons_append, List.cons_append, List.cons_append, List.cons_append, List.nil_append,
    idOfBytes_eight]
  apply BitVec.eq_of_toNat_eq
  simp only [toNat_append_eq, BitVec.extractLsb'_toNat, Nat.shiftRight_eq_div_pow]
  omega

theorem vendorKgdOf_append (hi lo : BitVec 32) : vendorKgdOf (hi ++ lo) = hi.extractLsb' 16 16 := by
  apply BitVec.eq_of_toNat_eq
  rw [vendorKgdOf_toNat, toNat_append_eq, BitVec.extractLsb'_toNat, Nat.shiftRight_eq_div_pow]
  omega

theorem eidOf_append (hi lo : BitVec 32) : eidOf (hi ++ lo) = hi.extractLsb' 0 16 ++ lo := by
  apply BitVec.eq_of_toNat_eq
  rw [eidOf_toNat, toNat_append_eq, toNat_append_eq, BitVec.extractLsb'_toNat, Nat.shiftRight_zero]
  omega

/-- The response of an RDID that has read two words (R125, R164). -/
theorem completionResponse_words (hi lo : BitVec 32) :
    completionResponse 0x3 (wordBytes hi ++ wordBytes lo) =
      { status := .ok
        rdata := wordBytes hi ++ wordBytes lo
        id := some (hi ++ lo)
        vendorKgd := some (hi.extractLsb' 16 16)
        eid := some (hi.extractLsb' 0 16 ++ lo) } := by
  rw [completionResponse, if_pos rfl, idOfBytes_wordBytes, vendorKgdOf_append, eidOf_append]

/-- One value for each micro-op; when each returns `Ok` with its value, the micro-ops put `w` in the wire trace and
append `r` to `rbuf`. -/
structure Yields (ops : List MicroOp) (vs : List (BitVec 32)) (w : List WireEvent) (r : List Byte) : Prop where
  length : vs.length = ops.length
  wire : wireOf ops vs = w
  reads : readsOf ops vs = r

/-- One stretch of micro-ops, then another. -/
theorem Yields.append {ops ops' : List MicroOp} {vs vs' : List (BitVec 32)} {w w' : List WireEvent} {r r' : List Byte}
    (h : Yields ops vs w r) (h' : Yields ops' vs' w' r') : Yields (ops ++ ops') (vs ++ vs') (w ++ w') (r ++ r') where
  length := by rw [List.length_append, List.length_append, h.length, h'.length]
  wire := by
    rw [wireOf, List.zipWith_append h.length.symm, List.flatten_append]
    exact congrArg₂ _ h.wire h'.wire
  reads := by
    rw [readsOf, List.zipWith_append h.length.symm, List.flatten_append]
    exact congrArg₂ _ h.reads h'.reads

/-- A micro-op for each item of a list: what each yields, one after the other. -/
theorem Yields.map {α : Type} {op : α → MicroOp} {v : α → BitVec 32} {w : α → WireEvent} {r : α → List Byte}
    (hw : ∀ x, (op x).wireEvents (v x) = [w x]) (hr : ∀ x, (op x).readBytes (v x) = r x) (xs : List α) :
    Yields (xs.map op) (xs.map v) (xs.map w) (xs.flatMap r) := by
  induction xs with
  | nil => exact ⟨rfl, rfl, rfl⟩
  | cons x xs ih =>
    have hx : Yields [op x] [v x] [w x] (r x) := ⟨rfl, by simp [wireOf, hw], by simp [readsOf, hr]⟩
    exact hx.append ih

/-- A transfer whose value is discarded, once for each item of a list. -/
theorem Yields.map_discard {α : Type} {op : α → MicroOp} {v : α → BitVec 32} {w : α → WireEvent}
    (hw : ∀ x, (op x).wireEvents (v x) = [w x]) (hr : ∀ x, (op x).readBytes (v x) = []) (xs : List α) :
    Yields (xs.map op) (xs.map v) (xs.map w) [] :=
  List.flatMap_eq_nil_iff.2 (fun _ _ => rfl) ▸ Yields.map (r := fun _ => []) hw hr xs

/-- The same transfer `n` times, its values discarded. -/
theorem Yields.replicate_discard {op : MicroOp} {w : BitVec 32 → WireEvent} (hw : ∀ v, op.wireEvents v = [w v])
    (hr : ∀ v, op.readBytes v = []) {vs : List (BitVec 32)} {n : Nat} (hn : vs.length = n) :
    Yields (List.replicate n op) vs (vs.map w) [] := by
  subst hn
  have h := Yields.map_discard (op := fun _ => op) (v := id) hw hr vs
  rwa [List.map_const', List.map_id] at h

/-- The same read `n` times: a byte of each value. -/
theorem Yields.replicate_read {op : MicroOp} {w : BitVec 32 → WireEvent} (hw : ∀ v, op.wireEvents v = [w v])
    (hr : ∀ v, op.readBytes v = [v.setWidth 8]) {vs : List (BitVec 32)} {n : Nat} (hn : vs.length = n) :
    Yields (List.replicate n op) vs (vs.map w) (vs.map fun v => v.setWidth 8) := by
  subst hn
  have h := Yields.map (op := fun _ => op) (v := id) hw hr vs
  rwa [List.map_const', List.map_id, ← List.map_eq_flatMap] at h

/-- A frame of phases holds no `SETTLE` (R113, R118). -/
theorem ne_settle_of_mem_frame {cs : LineId} {phases : List Phase} {m : WireMode} {op : MicroOp}
    (h : op ∈ frame cs (body phases m)) : op ≠ .settle := by
  rintro rfl
  have hbody : MicroOp.settle ∈ body phases m := by simpa [frame] using h
  have hmoves := body_transfersUnder phases m _ hbody
  cases m <;> exact Bool.false_ne_true hmoves

section
variable {s : State} {i : Instr} {h : Nat} {wd : List Byte} {m : WireMode} {phases : List Phase} (hs : Inv s)
  (hb : s.busy = false) (hm : s.wireMode = m) (hh : h < s.params.nHost) (hl : i.line.toNat < s.params.nCs)
  (hc : idleCheck (infoOf i) i.line i.len (s.present h wd) = none)
  (hframe : expansionOf i s.params wd = frame i.line (body phases m))
include hs hb hm hh hl hc hframe

/-- A command whose expansion is one frame in the present mode, from submission to response (R118 to R125). -/
theorem Inv.run_frame {vs : List (BitVec 32)} {w : List WireEvent} {r : List Byte} {y : BitVec 32} {es : List Event}
    (hy : Yields (expansionOf i s.params wd) vs w r)
    (hin : s.inputs = .submit h (encode i) wd :: (vs.map okEvent ++ okEvent y :: es)) :
    runSteps (vs.length + 2) s = .next (s.afterCommand i h wd i.line w (completionResponse i.code r) es) := by
  obtain ⟨hlen, rfl, rfl⟩ := hy
  have hwalk : walk s.params s.pose (expansionOf i s.params wd) = some { s.pose with id := i.line } :=
    hframe ▸ walk_frame_atRest (hs.pose_atRest hb) hl hm.symm phases
  have hanswers := okAnswers_okEvents s.params (fun op hop => ne_settle_of_mem_frame (hframe ▸ hop)) hlen
  rw [hlen]
  exact hs.run_command hb hh hc hwalk hanswers hin

/-- The same, with what the frame's opening sends, which reads nothing into `rbuf`, apart from its payload; then the
line rises. -/
theorem Inv.run_frame_parts {opening payload : List MicroOp} {xs vs : List (BitVec 32)} {w w' : List WireEvent}
    {r : List Byte} {y0 y1 y2 : BitVec 32} {es : List Event} {n : Nat}
    (hops : expansionOf i s.params wd = opening ++ (payload ++ [.drain, .unsel i.line]))
    (hopening : Yields opening xs w []) (hpayload : Yields payload vs w' r)
    (hin : s.inputs = .submit h (encode i) wd ::
      (xs.map okEvent ++ vs.map okEvent ++ [y0, y1, y2].map okEvent ++ es))
    (hn : n = xs.length + vs.length + 4) :
    runSteps n s = .next
      (s.afterCommand i h wd i.line (w ++ (w' ++ [.csRise i.line])) (completionResponse i.code r) es) := by
  have hend : Yields [.drain, .unsel i.line] [y0, y1] [.csRise i.line] [] := ⟨rfl, rfl, rfl⟩
  have hyields := hopening.append (hpayload.append hend)
  rw [← hops, List.nil_append, List.append_nil] at hyields
  have hsteps : n = (xs ++ (vs ++ [y0, y1])).length + 2 := by simp [hn, Nat.add_assoc]
  rw [hsteps]
  exact hs.run_frame hb hm hh hl hc hframe hyields (by simpa using hin)

end

/-- Settles O52: opcode and pad bytes, then two words, whose eight bytes make the identifier. -/
theorem readIdReturnsTheIdentifier : Obligations.ReadIdReturnsTheIdentifier := by
  intro s h wd cs a l x0 x1 hi lo y0 y1 y2 pads es hs hb hm hh hl hpads hin
  have hopcode : Yields [.sel cs, .tx8 0x9F] [x0, x1] [.csFall cs, .xb 0x9F (x1.setWidth 8)] [] := ⟨rfl, rfl, rfl⟩
  have hpad : Yields (List.replicate s.params.readIdPadBytes (.tx8 0x00)) pads
      (pads.map fun x => .xb 0x00 (x.setWidth 8)) [] := .replicate_discard (fun _ => rfl) (fun _ => rfl) hpads
  have hwords : Yields [.rx32, .rx32] [hi, lo] [.xw 0x00000000 hi, .xw 0x00000000 lo] (wordBytes hi ++ wordBytes lo) :=
    ⟨rfl, rfl, rfl⟩
  rw [← completionResponse_words]
  exact hs.run_frame_parts (i := .rdid cs a l) hb hm hh hl (idleCheck_control_eq_none hm hl) rfl (expansionOf_rdid ..)
    (hopcode.append hpad) hwords (y0 := y0) (y1 := y1) (y2 := y2) (by simpa using hin) (by simp [hpads]; omega)

/-- Settles O53: opcode, address and filler byte, then one read for each byte asked for. -/
theorem fastReadSpiReturnsTheBytesReceived : Obligations.FastReadSpiReturnsTheBytesReceived := by
  intro s h wd cs a l x0 x1 x2 x3 x4 x5 y0 y1 y2 vs es hs hb hm hh hl hmax hvs hin
  have hopening : Yields
      [.sel cs, .tx8 0x0B, .tx8 (a.extractLsb' 16 8), .tx8 (a.extractLsb' 8 8), .tx8 (a.extractLsb' 0 8), .tx8 0x00]
      [x0, x1, x2, x3, x4, x5] _ [] := ⟨rfl, rfl, rfl⟩
  have hreads : Yields (List.replicate l.toNat .rx8) vs (vs.map fun x => .xb 0x00 (x.setWidth 8))
      (vs.map fun x => x.setWidth 8) := .replicate_read (fun _ => rfl) (fun _ => rfl) hvs
  rw [List.append_assoc]
  exact hs.run_frame_parts (i := .frd cs a l) hb hm hh hl (idleCheck_data_eq_none hm hl hmax nofun) rfl
    (expansionOf_frd ..) hopening hreads hin (by simp [hvs]; omega)

/-- Settles O54: opcode and address, then one transfer for each byte of the write data. -/
theorem fastWriteSpiSendsTheWriteData : Obligations.FastWriteSpiSendsTheWriteData := by
  intro s h cs a l x0 x1 x2 x3 x4 y0 y1 y2 vs es hs hb hm hh hl hmax hvs hin
  have hopening : Yields
      [.sel cs, .tx8 0x02, .tx8 (a.extractLsb' 16 8), .tx8 (a.extractLsb' 8 8), .tx8 (a.extractLsb' 0 8)]
      [x0, x1, x2, x3, x4] _ [] := ⟨rfl, rfl, rfl⟩
  have hdata : Yields ((vs.map Prod.fst).map .tx8) (vs.map Prod.snd) (vs.map fun x => .xb x.1 (x.2.setWidth 8)) [] := by
    rw [List.map_map]
    exact .map_discard (fun _ => rfl) (fun _ => rfl) vs
  rw [List.append_assoc]
  exact hs.run_frame_parts (i := .fwr cs a l) hb hm hh hl
    (idleCheck_data_eq_none hm hl hmax fun _ => (List.length_map _).trans hvs) rfl (expansionOf_fwr ..)
    hopening hdata (by rwa [List.map_map]) (by simp [hvs]; omega)

/-- Settles O55: opcode, address and three discarded reads, then one read for each byte asked for. -/
theorem fastReadQspiReturnsTheBytesReceived : Obligations.FastReadQspiReturnsTheBytesReceived := by
  intro s h wd cs a l x0 x1 x2 x3 x4 k0 k1 k2 y0 y1 y2 vs es hs hb hm hh hl hmax hvs hin
  have hopening : Yields
      [.sel cs, .qtx 0xEB, .qtx (a.extractLsb' 16 8), .qtx (a.extractLsb' 8 8), .qtx (a.extractLsb' 0 8), .qskip,
        .qskip, .qskip]
      [x0, x1, x2, x3, x4, k0, k1, k2] _ [] := ⟨rfl, rfl, rfl⟩
  have hreads : Yields (List.replicate l.toNat .qrx) vs (vs.map fun x => .rnp (x.setWidth 8))
      (vs.map fun x => x.setWidth 8) := .replicate_read (fun _ => rfl) (fun _ => rfl) hvs
  rw [List.append_assoc]
  exact hs.run_frame_parts (i := .qfrd cs a l) hb hm hh hl (idleCheck_data_eq_none hm hl hmax nofun) rfl
    (expansionOf_qfrd ..) hopening hreads hin (by simp [hvs]; omega)

/-- Settles O56: the block's write opcode and the address, then one transfer for each byte of the write data. -/
theorem fastWriteQspiSendsTheWriteData : Obligations.FastWriteQspiSendsTheWriteData := by
  intro s h cs a l x0 x1 x2 x3 x4 y0 y1 y2 vs es hs hb hm hh hl hmax hvs hin
  have hopening : Yields
      [.sel cs, .qtx s.params.qspiWriteOpcode, .qtx (a.extractLsb' 16 8), .qtx (a.extractLsb' 8 8),
        .qtx (a.extractLsb' 0 8)]
      [x0, x1, x2, x3, x4] _ [] := ⟨rfl, rfl, rfl⟩
  have hdata : Yields ((vs.map Prod.fst).map .qtx) (vs.map Prod.snd) (vs.map fun x => .wnp x.1) [] := by
    rw [List.map_map]
    exact .map_discard (fun _ => rfl) (fun _ => rfl) vs
  rw [List.append_assoc]
  exact hs.run_frame_parts (i := .qfwr cs a l) hb hm hh hl
    (idleCheck_data_eq_none hm hl hmax fun _ => (List.length_map _).trans hvs) rfl (expansionOf_qfwr ..)
    hopening hdata (by rwa [List.map_map]) (by simp [hvs]; omega)

end Sys2Proof.Machine


/-! SUPPORT. The mode transitions from submission to response: a frame on every line in ascending order, then the pins
and the mode (40_transport_and_phases R118 to R125, 43_mode_controller R202 to R206). -/

namespace Sys2Proof.Machine

/-- The last of the block's lines is `N_CS - 1` (R7, R202). -/
theorem getLastD_allLines {p : Params} (hp : p.wf = true) (j : LineId) :
    (allLines p).getLastD j = BitVec.ofNat 4 (p.nCs - 1) := by
  obtain ⟨⟨hpos, -, -⟩, -⟩ := (Params.wf_iff p).1 hp
  obtain ⟨n, hn⟩ := Nat.exists_eq_add_of_le' hpos
  rw [allLines, hn, List.range_succ, List.map_append, Nat.add_sub_cancel]
  exact List.getLastD_concat ..

theorem length_allLines (p : Params) : (allLines p).length = p.nCs := by
  rw [allLines, List.length_map, List.length_range]

/-- A transfer is no `SETTLE` (R101, R110). -/
theorem ne_settle_of_transfersUnder {op : MicroOp} {m : WireMode} (h : op.transfersUnder m = true) : op ≠ .settle := by
  rintro rfl
  cases m <;> exact Bool.false_ne_true h

section
variable {p : Params} {m : WireMode} {b : LineId → List MicroOp}
  (hmoves : ∀ i, ∀ o ∈ b i, o.transfersUnder m = true)
include hmoves

/-- A frame of transfers on each of some lines leaves the pose but for the line, which is the last of them (R202,
R205). -/
theorem walk_frames_getLastD {lines : List LineId} (hl : ∀ i ∈ lines, i.toNat < p.nCs) {q : Pose} (hs : q.sel = false)
    (hm : q.pin = m) (hc : q.clean = true) :
    walk p q (lines.flatMap fun i => frame i (b i)) = some { q with id := lines.getLastD q.id } := by
  induction lines generalizing q with
  | nil => rfl
  | cons i lines ih =>
    rw [List.flatMap_cons, walk_append, walk_frame p m i (b i) (hmoves i) q hs hm hc (hl i List.mem_cons_self),
      List.getLastD_cons]
    exact ih (fun j hj => hl j (List.mem_cons_of_mem i hj)) hs hm hc

/-- From rest a frame of transfers on every line, then the pins, then the mode, leaves the last line selected last and
both at the new mode (R202, R205). -/
theorem walk_transition (hp : p.wf = true) {q : Pose} (hr : q.atRest = true) (hm : q.mode = m) (m' : WireMode) :
    walk p q ((allLines p).flatMap (fun i => frame i (b i)) ++ [.pins m', .mode m']) =
      some { q with id := BitVec.ofNat 4 (p.nCs - 1), pin := m', mode := m' } := by
  obtain ⟨hs, hpin, hc⟩ := q.atRest_iff.1 hr
  rw [walk_append, walk_frames_getLastD hmoves (fun _ h => mem_allLines hp h) hs (hpin.trans hm) hc, getLastD_allLines hp]
  simp [walk, Pose.after, hs, hc]

/-- Frames of transfers, then the pins, then the mode, hold no `SETTLE` (R110, R118). -/
theorem ne_settle_of_mem_transition {lines : List LineId} {m' : WireMode} {op : MicroOp}
    (h : op ∈ lines.flatMap (fun i => frame i (b i)) ++ [.pins m', .mode m']) : op ≠ .settle := by
  rintro rfl
  obtain ⟨i, -, hi⟩ : ∃ i ∈ lines, MicroOp.settle ∈ b i := by simpa [frame] using h
  exact ne_settle_of_transfersUnder (hmoves i _ hi) rfl

end

/-- A stretch of micro-ops for each item of a list that reads nothing into `rbuf`, one after the other. -/
theorem Yields.flatMap_discard {α : Type} {ops : α → List MicroOp} {vs : α → List (BitVec 32)} {w : α → List WireEvent}
    (h : ∀ x, Yields (ops x) (vs x) (w x) []) (xs : List α) :
    Yields (xs.flatMap ops) (xs.flatMap vs) (xs.flatMap w) [] := by
  induction xs with
  | nil => exact ⟨rfl, rfl, rfl⟩
  | cons x xs ih => exact (h x).append ih

/-- A mode transition from submission to response: a frame on every line, which reads nothing into `rbuf`, then the pins
and the mode (R118 to R125, R202, R205). -/
theorem Inv.run_transition {s : State} {i : Instr} {h : Nat} {wd : List Byte} {m m' : WireMode}
    {b : LineId → List MicroOp} {vs : LineId → List (BitVec 32)} {w : LineId → List WireEvent} {x y z : BitVec 32}
    {es : List Event} (hs : Inv s) (hb : s.busy = false) (hm : s.wireMode = m) (hh : h < s.params.nHost)
    (hc : idleCheck (infoOf i) i.line i.len (s.present h wd) = none)
    (hops : expansionOf i s.params wd = (allLines s.params).flatMap (fun j => frame j (b j)) ++ [.pins m', .mode m'])
    (hmoves : ∀ j, ∀ o ∈ b j, o.transfersUnder m = true) (hyields : ∀ j, Yields (frame j (b j)) (vs j) (w j) [])
    (hin : s.inputs = .submit h (encode i) wd ::
      (((allLines s.params).flatMap vs).map okEvent ++ [x, y, z].map okEvent ++ es)) :
    runSteps (((allLines s.params).flatMap vs).length + 4) s = .next
      { s.afterCommand i h wd (BitVec.ofNat 4 (s.params.nCs - 1)) ((allLines s.params).flatMap w ++ [.setPins m'])
          (completionResponse i.code []) es with
        wireMode := m'
        pinCfg := m' } := by
  have hwalk := walk_transition hmoves hs.params (hs.pose_atRest hb) hm m'
  have hend : Yields [.pins m', .mode m'] [x, y] [.setPins m'] [] := ⟨rfl, rfl, rfl⟩
  obtain ⟨hlen, hwire, hreads⟩ := (Yields.flatMap_discard hyields (allLines s.params)).append hend
  have hanswers := okAnswers_okEvents s.params (fun _ => ne_settle_of_mem_transition hmoves) hlen
  rw [← hops] at hwalk hlen hwire hreads hanswers
  have hrun := hs.run_command hb hh hc (d := ⟨.ok, z⟩) (es := es) hwalk hanswers (by simpa [okEvent] using hin)
  rw [hwire, hreads, ← hlen, List.length_append] at hrun
  exact hrun

/-- Settles O57: on every line a frame of the one byte `0x35`. -/
theorem enterQspiReachesEveryLine : Obligations.EnterQspiReachesEveryLine := by
  intro s h wd cs a l x v es hs hb hm hh hin
  have hframe (i : LineId) : Yields (frame i (body phasesEnableQspi .spi)) [x, v i, x, x]
      [.csFall i, .xb 0x35 ((v i).setWidth 8), .csRise i] [] := ⟨rfl, rfl, rfl⟩
  have hsteps : ((allLines s.params).flatMap fun i => [x, v i, x, x]).length = 4 * s.params.nCs := by
    simp [List.length_flatMap, length_allLines, Nat.mul_comm]
  rw [← hsteps]
  exact hs.run_transition (i := .qen cs a l) hb hm hh (idleCheck_transition_eq_none hm) rfl
    (fun _ => body_transfersUnder phasesEnableQspi .spi) hframe (x := x) (y := x) (z := x)
    (by rwa [List.map_flatMap])

/-- Settles O58: on every line a frame of the exit pattern, whose answers are all alike. -/
theorem exitQspiReachesEveryLine : Obligations.ExitQspiReachesEveryLine := by
  intro s h wd cs a l x es hs hb hm hh hin
  have hpattern : Yields (s.params.exitSequence.map .qtx) (s.params.exitSequence.map fun _ => x)
      (s.params.exitSequence.map .wnp) [] := .map_discard (fun _ => rfl) (fun _ => rfl) _
  have hframe (i : LineId) : Yields (frame i (s.params.exitSequence.map .qtx))
      ([x] ++ s.params.exitSequence.map (fun _ => x) ++ [x, x])
      ([.csFall i] ++ s.params.exitSequence.map .wnp ++ [.csRise i]) [] :=
    have hsel : Yields [.sel i] [x] [.csFall i] [] := ⟨rfl, rfl, rfl⟩
    have hend : Yields [.drain, .unsel i] [x, x] [.csRise i] [] := ⟨rfl, rfl, rfl⟩
    (hsel.append hpattern).append hend
  have hmoves : ∀ o ∈ s.params.exitSequence.map MicroOp.qtx, o.transfersUnder .qspi = true :=
    List.forall_mem_map.2 fun _ _ => rfl
  have hvalues : (allLines s.params).flatMap (fun _ => [x] ++ s.params.exitSequence.map (fun _ => x) ++ [x, x]) =
      List.replicate ((3 + s.params.exitSequence.length) * s.params.nCs) x := by
    rw [List.eq_replicate_iff]
    constructor
    · simp +arith [List.length_flatMap, length_allLines, Nat.mul_comm]
    · intro y hy
      obtain ⟨-, -, hmem⟩ := List.mem_flatMap.1 hy
      by_contra hne
      simp [hne] at hmem
  have hsteps := congrArg List.length hvalues
  rw [List.length_replicate] at hsteps
  rw [← hsteps]
  have hin' : s.inputs = .submit h (encode (.qex cs a l)) wd ::
      (((allLines s.params).flatMap fun _ => [x] ++ s.params.exitSequence.map (fun _ => x) ++ [x, x]).map okEvent ++
        [x, x, x].map okEvent ++ es) := by
    rw [hin, hvalues, List.map_replicate, List.replicate_add]
    rfl
  exact hs.run_transition (i := .qex cs a l) hb hm hh (idleCheck_transition_eq_none hm) rfl (fun _ => hmoves) hframe hin'

end Sys2Proof.Machine

/-! SUPPORT. A due micro-op that its backend lets fail: what it leaves in the trace, and the recovery that follows
(40_transport_and_phases R101, R102, R124, 60_exceptions R234 to R238). -/

namespace Sys2Proof.Machine

/-- A micro-op with a transport primitive is a transfer of that primitive, whatever it keeps of the value (R101). -/
theorem runOp_of_primitive {op : MicroOp} {p : Primitive} (hop : op.primitive = some p) :
    ∃ keep, ∀ d s, runOp op d s = runTransfer p keep d s := by
  cases op with
  | tx8 b => cases hop; exact ⟨keepNone, fun _ _ => rfl⟩
  | rx8 => cases hop; exact ⟨keepByte, fun _ _ => rfl⟩
  | rx32 => cases hop; exact ⟨wordBytes, fun _ _ => rfl⟩
  | qtx b => cases hop; exact ⟨keepNone, fun _ _ => rfl⟩
  | qrx => cases hop; exact ⟨keepByte, fun _ _ => rfl⟩
  | qskip => cases hop; exact ⟨keepNone, fun _ _ => rfl⟩
  | _ => cases hop

/-- A transfer that falls short ends in the recovery, on either backend (R102, R124). -/
theorem runOp_transfer_short {op : MicroOp} {p : Primitive} {d : Draw} {s : State} (hop : op.primitive = some p)
    (ha : d.answer = .short) : runOp op d s = (s.brokenOff p).recover .shortTransfer := by
  obtain ⟨keep, hrun⟩ := runOp_of_primitive hop
  simp [hrun, runTransfer, ha]

/-- A transfer that times out ends in the recovery on HardwareAssisted, which alone may time out (R102, R124). -/
theorem runOp_transfer_timeout {op : MicroOp} {p : Primitive} {d : Draw} {s : State} (hop : op.primitive = some p)
    (ha : d.answer = .timeout) (hb : s.params.backend = .hardwareAssisted) :
    runOp op d s = (s.brokenOff p).recover .transportTimeout := by
  obtain ⟨keep, hrun⟩ := runOp_of_primitive hop
  simp [hrun, runTransfer, ha, hb]

/-- `DRAIN` that times out ends in the recovery on HardwareAssisted, with no primitive to mark (R102, R108, R124). -/
theorem runDrain_timeout {d : Draw} {s : State} (ha : d.answer = .timeout)
    (hb : s.params.backend = .hardwareAssisted) : runDrain d s = s.recover .transportTimeout := by
  simp [runDrain, admitDrain, ha, hb]

/-- Settles O34: whichever way the micro-op fails, its turn is the recovery from the state with the failure marked in the
trace. -/
theorem failureRunsTheRecovery : Obligations.FailureRunsTheRecovery := by
  intro s op d es e broken h hp hfail
  have hrun : runOp op d (s.withInputs es) = { s.withInputs es with wire := s.wire ++ broken }.recover e := by
    rcases hfail with ⟨p, hop, rfl, ⟨ha, rfl⟩ | ⟨ha, rfl, hb⟩⟩ | ⟨rfl, rfl, ha, rfl, hb⟩
    · exact runOp_transfer_short hop ha
    · exact runOp_transfer_timeout hop ha hb
    · rw [List.append_nil]
      exact runDrain_timeout ha hb
  rw [step_dueWith h hp, hrun, List.append_assoc (s.wire ++ broken)]
  rfl

end Sys2Proof.Machine

/-! SUPPORT. How many SCLK cycles an expansion takes: those of its stretches, then of each command's frames
(40_transport_and_phases R103 to R106, 70_reset_and_hazards R277). -/

namespace Sys2Proof.Machine

@[simp] theorem progSclk_nil : progSclk [] = 0 := rfl

@[simp] theorem progSclk_append (x y : List MicroOp) : progSclk (x ++ y) = progSclk x + progSclk y := by
  simp [progSclk]

/-- The same micro-op `n` times takes `n` times its cycles. -/
@[simp] theorem progSclk_replicate (n : Nat) (op : MicroOp) : progSclk (List.replicate n op) = n * op.sclk := by
  simp [progSclk]

/-- Bytes sent by micro-ops of `k` cycles each. -/
theorem progSclk_map_const {f : Byte → MicroOp} {k : Nat} (hf : ∀ b, (f b).sclk = k) (bytes : List Byte) :
    progSclk (bytes.map f) = k * bytes.length := by
  simp [progSclk, Function.comp_def, hf, Nat.mul_comm]

/-- Selecting, draining and releasing take no cycle: a frame takes those of its body (R118). -/
theorem progSclk_frame (i : LineId) (b : List MicroOp) : progSclk (frame i b) = progSclk b := by
  simp [frame, progSclk, MicroOp.sclk]

/-- Frames of `k` cycles each, one on each of some lines. -/
theorem progSclk_flatMap_const {f : LineId → List MicroOp} {k : Nat} (hf : ∀ i, progSclk (f i) = k)
    (lines : List LineId) : progSclk (lines.flatMap f) = k * lines.length := by
  induction lines with
  | nil => rfl
  | cons i lines ih => rw [List.flatMap_cons, progSclk_append, hf, ih, List.length_cons, Nat.mul_succ, Nat.add_comm]

/-- Frames of `k` cycles each, one on every line, then the pins and the mode, which take none (R202, R205). -/
theorem progSclk_transition (p : Params) {f : LineId → List MicroOp} {k : Nat} (hf : ∀ i, progSclk (f i) = k)
    (m : WireMode) : progSclk ((allLines p).flatMap f ++ [.pins m, .mode m]) = k * p.nCs := by
  rw [progSclk_append, progSclk_flatMap_const hf, length_allLines]
  rfl

/-- The expansion of a command takes the cycles the table gives, where a write's data has the stated length (R277). -/
theorem progSclk_expansionOf (i : Instr) (p : Params) {wdata : List Byte}
    (hd : (infoOf i).isWrite = true → wdata.length = i.len.toNat) :
    progSclk (expansionOf i p wdata) = commandSclk p i.code i.len := by
  have htx : ∀ bytes : List Byte, progSclk (bytes.map .tx8) = 8 * bytes.length := progSclk_map_const fun _ => rfl
  have hqtx : ∀ bytes : List Byte, progSclk (bytes.map .qtx) = 2 * bytes.length := progSclk_map_const fun _ => rfl
  cases i with
  | rsten cs a l => rfl
  | rst cs a l => rfl
  | rdid cs a l =>
    simp +arith [expansionOf_rdid, progSclk_cons, MicroOp.sclk, commandSclk, Instr.code]
  | tglbl cs a l => rfl
  | frd cs a l =>
    simp +arith [expansionOf_frd, progSclk_cons, MicroOp.sclk, commandSclk, Instr.code, Instr.len]
  | fwr cs a l =>
    simp +arith [expansionOf_fwr, progSclk_cons, htx, MicroOp.sclk, commandSclk, Instr.code, hd rfl]
  | qen cs a l => exact progSclk_transition p (f := enableFrame) (fun _ => rfl) .qspi
  | qfrd cs a l =>
    simp +arith [expansionOf_qfrd, progSclk_cons, MicroOp.sclk, commandSclk, Instr.code, Instr.len]
  | qfwr cs a l =>
    simp +arith [expansionOf_qfwr, progSclk_cons, hqtx, MicroOp.sclk, commandSclk, Instr.code, hd rfl]
  | qex cs a l => exact progSclk_transition p (fun j => (progSclk_frame j _).trans (hqtx _)) .spi

/-- A command an idle block accepts has its expansion as the program, and check 4 has compared a write's data with its
length (R120, R122). -/
theorem accepted_program {i : Instr} {s t : State} (hb : s.busy = false) (h : exec i s = .next t)
    (ht : t.busy = true) :
    t.prog = expansionOf i s.params s.port.wdata ∧
      ((infoOf i).isWrite = true → s.port.wdata.length = i.len.toNat) := by
  rw [exec_eq_submit] at h
  rcases submit_cases h with ⟨hbusy, -⟩ | ⟨-, st, -, rfl⟩ | ⟨-, hc, rfl⟩
  · simp [hb] at hbusy
  · simp [hb] at ht
  · obtain ⟨-, -, hdata, -⟩ := (idleCheck_eq_none ..).1 hc
    exact ⟨rfl, (badData_eq_false ..).1 hdata⟩

/-- Settles O42: an accepted command's program is its expansion, and the cycles of that are the table's. -/
theorem expansionSclkIsTheTables : Obligations.ExpansionSclkIsTheTables := by
  intro i s t hb h ht
  obtain ⟨hprog, hdata⟩ := accepted_program hb h ht
  rw [hprog]
  exact progSclk_expansionOf i s.params hdata

end Sys2Proof.Machine
